-- ==== Sys2Proof/Word.lean ====
section
/-! DEFINITION. The word types of the ISO7816-3 protocol engine: an octet of the line (rule R9), the
4-bit index of a nibble, a 16-bit operand of a query, and the 32-bit event word and counter. -/

namespace Sys2Proof

/-- An octet of the T=0 byte stream (rule R9). -/
abbrev Byte := BitVec 8

/-- A 4-bit index or presence nibble (rules R25, R27). -/
abbrev Nibble := BitVec 4

/-- A 16-bit operand of a query port (rule R124). -/
abbrev Half := BitVec 16

/-- A 32-bit register, counter or event word (rules R25, R31, R80). -/
abbrev Word := BitVec 32

/-- The five status flags in the layout of rule R22: bit 0 RESET_ACTIVE, bit 1 VCC_PRESENT, bit 2
CLK_ACTIVE, bit 3 CARD_INSERT, bit 4 RCEMU_ACTIVE. -/
abbrev Flags := BitVec 5

end Sys2Proof
end

