-- ==== Sys2Proof/Config.lean ====
section
/-! DEFINITION. The implementation parameters `P_*` of rule R8, as plain data. Every slot holds its
own (`State.params`), so a statement about every state is a statement about every parameter value. -/

namespace Sys2Proof

/-- `P_MODE` (rules R8, R21): the slot listens on the line, or plays the card. -/
inductive Mode where
  | sniff
  | cardEmu
  deriving DecidableEq, Repr

/-- `P_DI_TAIL` (rules R8, R120): the Di table entries t0..t5 at indices 10..15. -/
structure DiTail where
  t0 : Byte
  t1 : Byte
  t2 : Byte
  t3 : Byte
  t4 : Byte
  t5 : Byte
  deriving DecidableEq, Repr

/-- `P_WT_IN_ATR` (rule R227). -/
inductive WtInAtr where
  | ignore
  | abortToWaitAtr
  deriving DecidableEq, Repr

/-- The five bytes of a T=0 TPDU header (rule R97). -/
structure Header where
  cla : Byte
  ins : Byte
  p1 : Byte
  p2 : Byte
  p3 : Byte
  deriving DecidableEq, Repr

/-- The two answers of `P_LINE_CASE` (rule R255): 2, data from the card, or 3, data to the card. -/
inductive LineDir where
  | fromCard
  | toCard
  deriving DecidableEq, Repr

/-- `P_LINE_CASE` (rule R8), a function of the five header bytes, written as data: every header
gets the answer `other`, but for the listed exceptions, which get the other one. Any such function has
this form because there are finitely many headers. DESIGN CHOICE (log 4), safe. -/
structure LineCase where
  other : LineDir
  exceptions : List Header
  deriving DecidableEq, Repr

/-- `P_UNEXPECTED_PB` (rule R261). -/
inductive UnexpectedPb where
  | asSw1
  | asNull
  deriving DecidableEq, Repr

/-- `P_RESET_FLUSH` (rule R212). -/
inductive ResetFlush where
  | discard
  | flush
  deriving DecidableEq, Repr

/-- What `P_PPS_RESPONSE` answers to a request its table does not list (rule R189). -/
inductive PpsAnswer where
  | echo
  | silent
  deriving DecidableEq, Repr

/-- `P_PPS_RESPONSE` (rules R8, R189), a function of the request bytes, written as data: a table of
requests and responses, and the answer to every other request. A request has at most six bytes, so
any such function has this form. DESIGN CHOICE (log 4), safe. -/
structure PpsResponse where
  listed : List (List Byte × List Byte)
  rest : PpsAnswer
  deriving DecidableEq, Repr

/-- `P_MSG_LEN_BYTES` (rule R300). -/
inductive MsgLenBytes where
  | one
  | two
  deriving DecidableEq, Repr

/-- `P_MSG_LEN_ORDER` (rules R66, R300). -/
inductive MsgLenOrder where
  | big
  | little
  deriving DecidableEq, Repr

/-- What a `msg_len` field holds for a message of `n` bytes that is longer than the field can state: the
spec gives no maximum and no outcome (rules R70, R300), so the value is free (DESIGN CHOICE, log 21). -/
opaque overlongLen : Nat → Half

/-- The message kinds of rule R302: each names a class and a type. Two are in the rule's text and not in its
table: `modemStatus`, the status of class MODEM (DESIGN CHOICE, log 24), and `cardAnswer`, which carries
`CARD_RESP` (DESIGN CHOICE, log 22). -/
inductive WireType where
  | sniffChange
  | sniffFidi
  | sniffAtr
  | sniffPps
  | sniffTpdu
  | cardemStatus
  | cardemPtsInfo
  | cardemRxData
  | cardemTxData
  | cardemAtrSet
  | cardemCardInsert
  | errorStatus
  | modemReset
  | modemSimSelect
  | modemStatus
  | cardAnswer
  deriving DecidableEq, Repr

/-- Every message kind. -/
def WireType.all : List WireType :=
  [.sniffChange, .sniffFidi, .sniffAtr, .sniffPps, .sniffTpdu, .cardemStatus, .cardemPtsInfo,
    .cardemRxData, .cardemTxData, .cardemAtrSet, .cardemCardInsert, .errorStatus, .modemReset,
    .modemSimSelect, .modemStatus, .cardAnswer]

/-- The numeric class and type of a message kind, and the payload length the type determines where it
determines a fixed one (rules R300, R303). -/
structure MsgCode where
  cls : Byte
  typ : Byte
  payloadLen : Option Nat
  deriving DecidableEq, Repr

/-- `P_MSG_CODES` (rules R8, R300, R302): a code for every message kind. -/
structure MsgCodes where
  sniffChange : MsgCode
  sniffFidi : MsgCode
  sniffAtr : MsgCode
  sniffPps : MsgCode
  sniffTpdu : MsgCode
  cardemStatus : MsgCode
  cardemPtsInfo : MsgCode
  cardemRxData : MsgCode
  cardemTxData : MsgCode
  cardemAtrSet : MsgCode
  cardemCardInsert : MsgCode
  errorStatus : MsgCode
  modemReset : MsgCode
  modemSimSelect : MsgCode
  modemStatus : MsgCode
  cardAnswer : MsgCode
  deriving DecidableEq, Repr

/-- `P_STATUS_BITS` (rule R22): the wire bit position of each flag. -/
structure StatusBits where
  resetActive : Nat
  vccPresent : Nat
  clkActive : Nat
  cardInsert : Nat
  rcemuActive : Nat
  deriving DecidableEq, Repr

/-- The wire parameters, all OPEN in rule R8. -/
structure WireParams where
  lenBytes : MsgLenBytes
  lenOrder : MsgLenOrder
  codes : MsgCodes
  statusBits : StatusBits
  deriving DecidableEq, Repr

/-- The code of a message kind. -/
def WireParams.codeOf (w : WireParams) : WireType → MsgCode
  | .sniffChange => w.codes.sniffChange
  | .sniffFidi => w.codes.sniffFidi
  | .sniffAtr => w.codes.sniffAtr
  | .sniffPps => w.codes.sniffPps
  | .sniffTpdu => w.codes.sniffTpdu
  | .cardemStatus => w.codes.cardemStatus
  | .cardemPtsInfo => w.codes.cardemPtsInfo
  | .cardemRxData => w.codes.cardemRxData
  | .cardemTxData => w.codes.cardemTxData
  | .cardemAtrSet => w.codes.cardemAtrSet
  | .cardemCardInsert => w.codes.cardemCardInsert
  | .errorStatus => w.codes.errorStatus
  | .modemReset => w.codes.modemReset
  | .modemSimSelect => w.codes.modemSimSelect
  | .modemStatus => w.codes.modemStatus
  | .cardAnswer => w.codes.cardAnswer

/-- Class and type tell the message kinds apart, and the five flags have five places: what it takes for a
message, or a status word, to be read back (rules R22, R300, R302; DEDUCED, log 16). No invariant of a
slot asks for it. -/
abbrev WireParams.wf (w : WireParams) : Prop :=
  (WireType.all.map fun k => ((w.codeOf k).cls, (w.codeOf k).typ)).Nodup
    ∧ [w.statusBits.resetActive, w.statusBits.vccPresent, w.statusBits.clkActive,
        w.statusBits.cardInsert, w.statusBits.rcemuActive].Nodup

/-- The parameters of one slot (rule R8). -/
structure Params where
  /-- `P_MODE` -/
  mode : Mode
  /-- `P_DI_TAIL` -/
  diTail : DiTail
  /-- `P_FMAX_TABLE`; no rule reads it (rule R127) -/
  fmaxTable : List Nat
  /-- `P_WI_TC_INDEX` -/
  wiTcIndex : Byte
  /-- `P_ATR_MAX` -/
  atrMax : Nat
  /-- `P_OBUF_SIZE` -/
  obufSize : Nat
  /-- `P_WT_IN_ATR` -/
  wtInAtr : WtInAtr
  /-- `P_LINE_CASE` -/
  lineCase : LineCase
  /-- `P_UNEXPECTED_PB` -/
  unexpectedPb : UnexpectedPb
  /-- `P_RESET_FLUSH` -/
  resetFlush : ResetFlush
  /-- `P_PPS_RESPONSE` -/
  ppsResponse : PpsResponse
  /-- `P_DEFAULT_ATR` -/
  defaultAtr : List Byte
  /-- `P_MSG_LEN_BYTES`, `P_MSG_LEN_ORDER`, `P_MSG_CODES`, `P_STATUS_BITS` -/
  wire : WireParams
  deriving DecidableEq, Repr

/-- `DC_CAP` (rule R8): the capacity of a command data buffer. -/
def dcCap : Nat := 65535

/-- `DE_CAP` (rule R8): the capacity of a response data buffer. -/
def deCap : Nat := 65536

/-- The bounds the spec puts on parameters: `P_ATR_MAX` in 2..255 (rules R142, R143, decision D15),
`P_OBUF_SIZE` at least 1 (rule R8), sixteen Fmax entries (rule R127). -/
abbrev Params.wf (p : Params) : Prop :=
  2 ≤ p.atrMax ∧ p.atrMax ≤ 255 ∧ 1 ≤ p.obufSize ∧ p.fmaxTable.length = 16

/-- The parameters `State.reset` is created with: the settled values and defaults of rule R8. The OPEN
ones have no value in the spec; they are set here as the test vectors of 95_test_vectors.md set
them (Sniff, 64, empty), the wire ones and Fmax to the plainest value.
DESIGN CHOICE (log 3), unsafe for a claim about `State.reset` alone; no statement rests on them. -/
def Params.start : Params where
  mode := .sniff
  diTail := ⟨0, 0, 0, 0, 0, 0⟩
  fmaxTable := List.replicate 16 0
  wiTcIndex := 1
  atrMax := 33
  obufSize := 64
  wtInAtr := .ignore
  lineCase := ⟨.fromCard, []⟩
  unexpectedPb := .asSw1
  resetFlush := .discard
  ppsResponse := ⟨[], .echo⟩
  defaultAtr := []
  wire := ⟨.one, .big, ⟨⟨1, 1, none⟩, ⟨1, 2, none⟩, ⟨1, 3, none⟩, ⟨1, 4, none⟩, ⟨1, 5, none⟩,
    ⟨2, 1, none⟩, ⟨2, 2, none⟩, ⟨2, 3, none⟩, ⟨2, 4, none⟩, ⟨2, 5, none⟩, ⟨2, 6, none⟩,
    ⟨3, 1, none⟩, ⟨4, 1, none⟩, ⟨4, 2, none⟩, ⟨4, 3, none⟩, ⟨2, 7, none⟩⟩, ⟨0, 1, 2, 3, 4⟩⟩

end Sys2Proof
end

