-- ==== Sys2Proof/Syntax.lean ====
section
/-! DEFINITION. The events of the engine. `RawEvent` is an event as the environment delivers it (rule
R80: a 32-bit event word and its payload bytes); `Instr` has one constructor for each row of
spec/opcode_table.json. -/

namespace Sys2Proof

/-- An event as delivered: the event word and the payload bytes after it (rules R80, R92). -/
structure RawEvent where
  word : Word
  payload : List Byte
  deriving DecidableEq, Repr

/-- One constructor for each row of spec/opcode_table.json, in the table's order. `dir`, `pe`, `oe`,
`fe` are the bits DIR, PE, OE, FE of a `LINE_BYTE` word (rule R81) and `b` its BYTE; a row that fixes
one of them has no operand for it. -/
inductive Instr where
  /-- LINE_BYTE.PE (R211) -/
  | lineBytePe (dir oe fe : Bool) (b : Byte)
  /-- LINE_BYTE.OE (R211) -/
  | lineByteOe (dir pe fe : Bool) (b : Byte)
  /-- LINE_BYTE.FE (R211) -/
  | lineByteFe (dir pe oe : Bool) (b : Byte)
  /-- LINE_BYTE.RESET (R236) -/
  | lineByteReset (dir pe oe fe : Bool) (b : Byte)
  /-- LINE_BYTE.WAITATR (R221) -/
  | lineByteWaitAtr (dir : Bool) (b : Byte)
  /-- ATR.TS (R143) -/
  | atrTs (dir : Bool) (b : Byte)
  /-- ATR.T0 (R144) -/
  | atrT0 (dir : Bool) (b : Byte)
  /-- ATR.TA (R145) -/
  | atrTa (dir : Bool) (b : Byte)
  /-- ATR.TB (R146) -/
  | atrTb (dir : Bool) (b : Byte)
  /-- ATR.TC (R147) -/
  | atrTc (dir : Bool) (b : Byte)
  /-- ATR.TD (R148) -/
  | atrTd (dir : Bool) (b : Byte)
  /-- ATR.HIST (R149) -/
  | atrHist (dir : Bool) (b : Byte)
  /-- ATR.TCK (R150) -/
  | atrTck (dir : Bool) (b : Byte)
  /-- LINE_BYTE.INATR (R222) -/
  | lineByteInAtr (dir : Bool) (b : Byte)
  /-- PPS.PTSS_REQ (R182): BYTE is 0xFF -/
  | ppsPtssReq (dir : Bool)
  /-- TPDU.CLA (R223): BYTE is not 0xFF -/
  | tpduCla (dir : Bool) (b : Byte)
  /-- LINE_BYTE.WAITAPDU (R223) -/
  | lineByteWaitApdu (dir : Bool) (b : Byte)
  /-- LINE_BYTE.INPTS (R224) -/
  | lineByteInPts (dir : Bool) (b : Byte)
  /-- PPS.PTS0 (R183) -/
  | ppsPts0 (dir : Bool) (b : Byte)
  /-- PPS.PTS1 (R184) -/
  | ppsPts1 (dir : Bool) (b : Byte)
  /-- PPS.PTS2 (R185) -/
  | ppsPts2 (dir : Bool) (b : Byte)
  /-- PPS.PTS3 (R186) -/
  | ppsPts3 (dir : Bool) (b : Byte)
  /-- PPS.PCK_REQ (R187) -/
  | ppsPckReq (dir : Bool) (b : Byte)
  /-- PPS.PTSS_RESP (R190) -/
  | ppsPtssResp (dir : Bool) (b : Byte)
  /-- PPS.PCK_RESP (R188) -/
  | ppsPckResp (dir : Bool) (b : Byte)
  /-- LINE_BYTE.INAPDU (R220) -/
  | lineByteInApdu (dir : Bool) (b : Byte)
  /-- TPDU.INS (R252) -/
  | tpduIns (dir : Bool) (b : Byte)
  /-- TPDU.P1 (R253) -/
  | tpduP1 (dir : Bool) (b : Byte)
  /-- TPDU.P2 (R254) -/
  | tpduP2 (dir : Bool) (b : Byte)
  /-- TPDU.P3 (R255) -/
  | tpduP3 (dir : Bool) (b : Byte)
  /-- TPDU.PB_NULL (R257): BYTE is 0x60 -/
  | tpduPbNull (dir : Bool)
  /-- TPDU.PB_SW1_6X (R258): BYTE is 0x6 and `lo`, `lo` not 0 -/
  | tpduPbSw16x (dir : Bool) (lo : Nibble)
  /-- TPDU.PB_SW1_9X (R258): BYTE is 0x9 and `lo` -/
  | tpduPbSw19x (dir : Bool) (lo : Nibble)
  /-- TPDU.PB_ACK_ALL (R259) -/
  | tpduPbAckAll (dir : Bool) (b : Byte)
  /-- TPDU.PB_ACK_ONE (R260) -/
  | tpduPbAckOne (dir : Bool) (b : Byte)
  /-- TPDU.PB_OTHER (R261) -/
  | tpduPbOther (dir : Bool) (b : Byte)
  /-- TPDU.DATA (R262) -/
  | tpduData (dir : Bool) (b : Byte)
  /-- TPDU.SW2 (R263) -/
  | tpduSw2 (dir : Bool) (b : Byte)
  /-- LINE_BYTE (R210) -/
  | lineByte (dir pe oe fe : Bool) (b : Byte)
  /-- WT_EXPIRY (R225) -/
  | wtExpiry
  /-- SIGNAL (R214) -/
  | signal (clk vcc rst : Bool)
  /-- WT_EXPIRY.WAITATR (R226) -/
  | wtExpiryWaitAtr
  /-- WT_EXPIRY.INATR (R227) -/
  | wtExpiryInAtr
  /-- WT_EXPIRY.WAITAPDU (R228) -/
  | wtExpiryWaitApdu
  /-- WT_EXPIRY.INAPDU (R229) -/
  | wtExpiryInApdu
  /-- WT_EXPIRY.INPTS (R230) -/
  | wtExpiryInPts
  /-- SIGNAL.RST_ASSERT (R215): RST = 1 -/
  | signalRstAssert (clk vcc : Bool)
  /-- SIGNAL.RST_RELEASE (R216): RST = 0, VCC = 1 -/
  | signalRstRelease (clk : Bool)
  /-- SIGNAL.VCC_OFF (R217): RST = 0, VCC = 0 -/
  | signalVccOff (clk : Bool)
  /-- SIGNAL.CLK (R218) -/
  | signalClk (clk vcc rst : Bool)
  /-- CARD_INSERT (R219) -/
  | cardInsert (ins : Bool)
  /-- ATR_SET (R160) -/
  | atrSet (x : List Byte)
  /-- APDU_SEG.NEW (R293) -/
  | apduSegNew (seg : List Byte)
  /-- APDU_SEG.CONT (R294) -/
  | apduSegCont (seg : List Byte)
  /-- CARD_RESP (R297) -/
  | cardResp (r : List Byte)
  /-- STATUS_IN (R298) -/
  | statusIn (flags : Flags)
  /-- FUNC.VALID_F (R122) -/
  | funcValidF (f : Half)
  /-- FUNC.VALID_D (R123) -/
  | funcValidD (d : Byte)
  /-- FUNC.FIDI_RATIO (R125) -/
  | funcFidiRatio (fidi : Byte)
  /-- FUNC.CALC_WT (R124) -/
  | funcCalcWt (wi : Byte) (fi f : Half) (di d : Byte)
  /-- FUNC.CLASSIFY_CASE (R290) -/
  | funcClassifyCase (seg : List Byte)
  /-- FUNC.CLASSIFY_PB (R256) -/
  | funcClassifyPb (ins b : Byte)
  /-- FUNC.ATR_PARSE (R154) -/
  | funcAtrParse (x : List Byte)
  /-- FUNC.ATR_BUILD (R156) -/
  | funcAtrBuild (x : List Byte)
  /-- RESERVED.FUNC_FN8_15 (R91): FN = 8 + `fn` -/
  | reservedFn (fn : BitVec 3) (rest : BitVec 24)
  /-- RESERVED.KIND_0 (R91) -/
  | reservedKind0 (rest : BitVec 28)
  /-- RESERVED.KIND_9 (R91) -/
  | reservedKind9 (rest : BitVec 28)
  /-- RESERVED.KIND_B (R91) -/
  | reservedKindB (rest : BitVec 28)
  /-- RESERVED.KIND_C (R91) -/
  | reservedKindC (rest : BitVec 28)
  /-- RESERVED.KIND_D (R91) -/
  | reservedKindD (rest : BitVec 28)
  /-- RESERVED.KIND_E (R91) -/
  | reservedKindE (rest : BitVec 28)
  /-- RESERVED.KIND_F (R91) -/
  | reservedKindF (rest : BitVec 28)
  deriving DecidableEq, Repr

end Sys2Proof
end

