-- ==== Sys2Proof/Machine/State.lean ====
section
/-! DEFINITION. The state of one slot, as 10_state.md lists it, field by field, and its power-on
values (rules R20 to R36). Plain data throughout. -/

namespace Sys2Proof.Machine

/-- The top-level phase `TOP` (rule R23). Its codes, like those of the fields below, are a view of the
names (DEDUCED, log 18, safe). -/
inductive Top where
  | reset
  | waitAtr
  | inAtr
  | waitApdu
  | inApdu
  | inPts
  deriving DecidableEq, Repr

/-- The ATR sub-state `ATR_STATE` (rules R27, R140). -/
inductive AtrState where
  | waitTS
  | waitT0
  | waitTA
  | waitTB
  | waitTC
  | waitTD
  | waitHist
  | waitTCK
  | done
  deriving DecidableEq, Repr

/-- The kind of an interface byte, in the order of the presence nibble's bits (rule R141). -/
inductive IfKind where
  | ta
  | tb
  | tc
  | td
  deriving DecidableEq, Repr

/-- `PPS_PHASE` (rule R28). -/
inductive PpsPhase where
  | req
  | resp
  deriving DecidableEq, Repr

/-- `PPS_POS` (rule R28). -/
inductive PpsPos where
  | ptss
  | pts0
  | pts1
  | pts2
  | pts3
  | pck
  deriving DecidableEq, Repr

/-- `TPDU_STATE` (rule R30). -/
inductive TpduState where
  | idle
  | hdrIns
  | hdrP1
  | hdrP2
  | hdrP3
  | proc
  | data
  | sw2
  deriving DecidableEq, Repr

/-- `apdu_case` (rule R31): 0, not yet classified, or 1 to 4. -/
inductive ApduCase where
  | unclassified
  | case1
  | case2
  | case3
  | case4
  deriving DecidableEq, Repr

/-- A progress counter `{cur, tot}` (rule R31). -/
structure Progress where
  cur : Word
  tot : Word
  deriving DecidableEq, Repr

/-- ApduContext (rule R31). -/
structure ApduCtx where
  hdr : Header
  apduCase : ApduCase
  lc : Progress
  le : Progress
  dc : List Byte
  de : List Byte
  sw0 : Option Byte
  sw1 : Option Byte
  deriving DecidableEq, Repr

/-- The cleared ApduContext (rule R31). -/
def ApduCtx.cleared : ApduCtx where
  hdr := ⟨0, 0, 0, 0, 0⟩
  apduCase := .unclassified
  lc := ⟨0, 0⟩
  le := ⟨0, 0⟩
  dc := []
  de := []
  sw0 := none
  sw1 := none

/-- The timing registers (rule R25). -/
structure Timing where
  capFi : Nibble
  capDi : Nibble
  opFi : Nibble
  opDi : Nibble
  wi : Byte
  wt : Word
  fidiRatio : Word
  deriving DecidableEq, Repr

/-- The defaults of power-on, `Reset` entry and `WaitAtr` entry (rule R25). -/
def Timing.default : Timing where
  capFi := 1
  capDi := 1
  opFi := 1
  opDi := 1
  wi := 10
  wt := 9600
  fidiRatio := 372

/-- The WT timer state (rule R26). -/
structure WtTimer where
  armed : Bool
  load : Word
  deriving DecidableEq, Repr

/-- The ATR parser registers (rule R27). -/
structure AtrRegs where
  st : AtrState
  idx : Byte
  y : Nibble
  k : Nibble
  tckNeeded : Bool
  buf : List Byte
  ta1 : Option Byte
  wi : Option Byte
  deriving DecidableEq, Repr

/-- The PO, RST and WA values of the ATR parser registers (rule R27). -/
def AtrRegs.cleared : AtrRegs where
  st := .waitTS
  idx := 0
  y := 0
  k := 0
  tckNeeded := false
  buf := []
  ta1 := none
  wi := none

/-- The six bytes of one PPS half, indexed by position (rule R28). -/
structure PpsBytes where
  ptss : Option Byte
  pts0 : Option Byte
  pts1 : Option Byte
  pts2 : Option Byte
  pts3 : Option Byte
  pck : Option Byte
  deriving DecidableEq, Repr

/-- No byte of a PPS half read yet (rule R28). -/
def PpsBytes.empty : PpsBytes := ⟨none, none, none, none, none, none⟩

/-- The PPS registers (rule R28). -/
structure PpsRegs where
  phase : PpsPhase
  pos : PpsPos
  req : PpsBytes
  resp : PpsBytes
  xor : Byte
  reqOk : Bool
  deriving DecidableEq, Repr

/-- The PO, RST and WA values of the PPS registers (rule R28). -/
def PpsRegs.cleared : PpsRegs := ⟨.req, .ptss, .empty, .empty, 0, false⟩

/-- The line-level TPDU reassembler (rule R30); `ctx` is `LCTX`. -/
structure TpduRegs where
  st : TpduState
  dataLeft : Word
  ctx : ApduCtx
  deriving DecidableEq, Repr

/-- The PO, RST and WA values of the TPDU registers (rule R30). -/
def TpduRegs.cleared : TpduRegs := ⟨.idle, 0, .cleared⟩

/-- The bridge registers (rule R32); `ctx` is `BCTX`. -/
structure Bridge where
  ctx : ApduCtx
  valid : Bool
  forwarded : Bool
  ext : Bool
  fatal : Bool
  prevStatus : Flags
  deriving DecidableEq, Repr

/-- The power-on bridge (rule R32). -/
def Bridge.powerOn : Bridge := ⟨.cleared, false, false, false, false, 0⟩

/-- The TimingError kinds (rules R124, R331). -/
inductive TimingErr where
  | invalidWi
  | invalidF
  | invalidD
  | protocolViolation
  deriving DecidableEq, Repr

/-- The stage of a TimingError (rule R331). -/
inductive TimingStage where
  | atr
  | pps
  deriving DecidableEq, Repr

/-- The TransportError kinds (rule R334). -/
inductive TransportErr where
  | tooShort
  | unexpectedResponse
  | unknownType
  | badLength
  | badMsgLen
  | atrSetMalformed
  deriving DecidableEq, Repr

/-- The FatalBridgeError kinds (rule R335). -/
inductive BridgeErr where
  | lengthMismatch
  | zeroLc
  | noDataOwed
  | noOutcome
  deriving DecidableEq, Repr

/-- An error and its info (rules R330 to R335, R347); its code is `errCode` (rule R337; DESIGN
CHOICE, log 11, safe). -/
inductive ErrInfo where
  | timing (e : TimingErr) (stage : TimingStage)
  | framing (b : Byte) (pe oe fe : Bool)
  | protocolDesync (b : Byte)
  | transport (e : TransportErr)
  | fatalBridge (e : BridgeErr)
  | pckMismatch (phase : PpsPhase)
  deriving DecidableEq, Repr

/-- The two model faults of rule R336, held in `FAULT`. -/
inductive ModelFault where
  | atrOverflow
  | illegalEvent
  deriving DecidableEq, Repr

/-- Why `OBUF` was flushed (rule R231). -/
inductive FlushReason where
  | full
  | wtExpiry
  | atrDone
  | ppsDone
  | reset
  deriving DecidableEq, Repr

/-- The two triggers of rule R298. -/
inductive CardResetKind where
  | cold
  | warm
  deriving DecidableEq, Repr

/-- An output record (rules R302, R340). -/
inductive Record where
  | change (status : Flags)
  | fidi (fidi : Byte) (ratio : Word)
  | atr (bytes : List Byte) (len : Nat)
  | pps (req resp : List Byte)
  | data (bytes : List Byte) (reason : FlushReason)
  | tpduDone (ctx : ApduCtx)
  | error (e : ErrInfo)
  | rxMore (n : Word)
  | txToCard (capdu : List Byte)
  | complete (sw1 sw2 : Byte) (de : List Byte)
  | cardReset (k : CardResetKind)
  | uartEnable (rx tx : Bool)
  | uartSetFidi (ratio : Word)
  | sendByte (b : Byte)
  | timerSetWtime (n : Word)
  | timerArm
  | timerDisarm
  deriving DecidableEq, Repr

/-- A result of U1 (rules R124, R125): a `u32` or a TimingError. -/
inductive TimingResult where
  | ok (v : Word)
  | err (e : TimingErr)
  deriving DecidableEq, Repr

/-- Why a command segment is malformed (rule R290). -/
inductive CaseErr where
  | tooShort
  | lengthMismatch
  | zeroLc
  deriving DecidableEq, Repr

/-- `Case{c, lc_tot, le_tot, ext, off, avail}` (rule R290). -/
structure CaseInfo where
  c : ApduCase
  lcTot : Nat
  leTot : Nat
  ext : Bool
  off : Nat
  avail : Nat
  deriving DecidableEq, Repr

/-- The result of the case discriminator (rule R290). -/
inductive CaseResult where
  | case (info : CaseInfo)
  | malformed (e : CaseErr)
  deriving DecidableEq, Repr

/-- The procedure-byte classes (rules R98, R256). -/
inductive PbClass where
  | null
  | sw1
  | ackAll
  | ackOne
  | other
  deriving DecidableEq, Repr

/-- One interface byte of a parsed ATR: index, kind, value (rule R155). -/
structure IfByte where
  i : Byte
  kind : IfKind
  value : Byte
  deriving DecidableEq, Repr

/-- AtrStruct, the parsed form of an ATR (rule R155). -/
structure AtrStruct where
  ts : Byte
  t0 : Byte
  ifb : List IfByte
  hist : List Byte
  tck : Option Byte
  deriving DecidableEq, Repr

/-- The result of `atr_parse` (rule R154). -/
inductive ParseResult where
  | complete (s : AtrStruct)
  | trailing (s : AtrStruct) (used : Nat)
  | incomplete (st : AtrState)
  | overflow
  deriving DecidableEq, Repr

/-- The result of `atr_build` (rule R156). -/
inductive BuildResult where
  | bytes (x : List Byte)
  | illFormed
  deriving DecidableEq, Repr

/-- A value of the query-result port (rule R89). -/
inductive QueryResult where
  | bool (v : Bool)
  | timing (r : TimingResult)
  | apduCase (r : CaseResult)
  | pbClass (c : PbClass)
  | parse (r : ParseResult)
  | build (r : BuildResult)
  deriving DecidableEq, Repr

/-- The whole state of one slot (10_state.md). `inq` and `queryPort` are the model's own (log 1,
log 2). -/
structure State where
  /-- the parameters of rule R8, fixed at slot creation -/
  params : Params
  /-- `MODE` (R21) -/
  mode : Mode
  /-- `ATR_CFG` (R21) -/
  atrCfg : List Byte
  /-- `RCEMU_ACTIVE` (R21); no event writes it (DEDUCED, log 12) -/
  rcemuActive : Bool
  /-- `STATUS` (R22) -/
  status : Flags
  /-- `TOP` (R23) -/
  top : Top
  /-- the timing registers (R25) -/
  timing : Timing
  /-- `WT_ARMED`, `WT_LOAD` (R26) -/
  timer : WtTimer
  /-- the ATR parser registers (R27) -/
  atr : AtrRegs
  /-- the PPS registers (R28) -/
  pps : PpsRegs
  /-- `OBUF` (R29) -/
  obuf : List Byte
  /-- the TPDU registers (R30) -/
  tpdu : TpduRegs
  /-- the bridge registers (R32) -/
  bridge : Bridge
  /-- `LAST_ERR` (R33) -/
  lastErr : Option ErrInfo
  /-- `FAULT` (R33, R336) -/
  fault : Option ModelFault
  /-- `OUTQ`, oldest first (R34), unbounded (DEDUCED, log 13) -/
  outq : List Record
  /-- the model's own: the events the environment has lined up, next first (R62, log 1) -/
  inq : List RawEvent
  /-- the model's own: the value on the query-result port (R89, log 2) -/
  queryPort : Option QueryResult
  deriving DecidableEq, Repr

/-- Why the machine stops. -/
inductive Fault where
  /-- A line byte or an admitted WT expiry in a phase vector that the spec says never holds, so that
  no rule of it says what happens (rules R222, R224, R225; rules R255, R264, R265, R296 for an
  unclassified context). Raised by the rule functions of Machine/Atr, Pps, Tpdu, Line and Bridge. Safe:
  no run from power-on reaches one (log 9). -/
  | noRule
  deriving DecidableEq, Repr

/-- Why a step has no meaning. -/
inductive Refusal where
  /-- An instruction whose meaning is not written yet; none is left in this model. Safe. -/
  | notModelled (mnemonic : String)
  /-- `step` with no event lined up: the run has ended (rule R377). Safe (log 10). -/
  | noEvent
  /-- `step` on an event whose payload is shorter than its word says: it "cannot be delivered as one
  event" (rule R91). Safe (log 8). -/
  | payloadShort
  /-- `step` on an event whose payload is longer than its word says (rule R92). Safe (log 8). -/
  | payloadLong
  deriving DecidableEq, Repr

/-- A slot at power-on with the parameters `p` (rule R36). -/
def State.powerOn (p : Params) : State where
  params := p
  mode := p.mode
  atrCfg := []
  rcemuActive := false
  status := 0
  top := .reset
  timing := .default
  timer := ⟨false, 9600⟩
  atr := .cleared
  pps := .cleared
  obuf := []
  tpdu := .cleared
  bridge := .powerOn
  lastErr := none
  fault := none
  outq := []
  inq := []
  queryPort := none

/-- The machine right after reset: a slot at power-on (rule R36) with the parameters `Params.start`
(log 3). -/
def State.reset : State := State.powerOn Params.start

end Sys2Proof.Machine
end

