-- ==== Sys2Proof/Machine/Operands.lean ====
section
/-! DEFINITION. Operand forms: the nibbles and presence bits of a byte (rules R10, R93 to R96), the
parameter functions of rule R8 read from their tables, and the tagged payload of `ATR_BUILD`
(rule R90). -/

namespace Sys2Proof.Machine

/-- `b[7:4]`, the high nibble (rule R10). -/
def hiNibble (b : Byte) : Nibble := b.extractLsb' 4 4

/-- `b[3:0]`, the low nibble (rule R10). -/
def loNibble (b : Byte) : Nibble := b.extractLsb' 0 4

/-- PTS0 bit 4: PTS1 present (rule R96). -/
def hasPts1 (t : Byte) : Bool := t.getLsbD 4

/-- PTS0 bit 5: PTS2 present (rule R96). -/
def hasPts2 (t : Byte) : Bool := t.getLsbD 5

/-- PTS0 bit 6: PTS3 present (rule R96). -/
def hasPts3 (t : Byte) : Bool := t.getLsbD 6

/-- `first_present(Y, k0)` (rule R141): the least kind at or after `k0` whose presence bit is set. -/
def firstPresent (y : Nibble) (k0 : Nat) : Option IfKind :=
  if k0 ≤ 0 ∧ y.getLsbD 0 then some .ta
  else if k0 ≤ 1 ∧ y.getLsbD 1 then some .tb
  else if k0 ≤ 2 ∧ y.getLsbD 2 then some .tc
  else if k0 ≤ 3 ∧ y.getLsbD 3 then some .td
  else none

/-- `wait_of(k)` (rule R141). -/
def waitOf : IfKind → AtrState
  | .ta => .waitTA
  | .tb => .waitTB
  | .tc => .waitTC
  | .td => .waitTD

/-- The number of a kind, the index of its presence bit (rule R141). -/
def kindNum : IfKind → Nat
  | .ta => 0
  | .tb => 1
  | .tc => 2
  | .td => 3

/-- `P_LINE_CASE(hdr)` (rule R255). -/
def lineDir (c : LineCase) (h : Header) : LineDir :=
  if h ∈ c.exceptions then
    match c.other with
    | .fromCard => .toCard
    | .toCard => .fromCard
  else c.other

/-- `P_PPS_RESPONSE(req)` (rule R189). -/
def ppsResponse (r : PpsResponse) (req : List Byte) : List Byte :=
  match r.listed.find? (fun e => e.1 == req) with
  | some e => e.2
  | none =>
    match r.rest with
    | .echo => req
    | .silent => []

/-- The kind an interface tag `0x40 | (k << 4) | i` names (rule R90). -/
def tagKind (tag : Byte) : Option IfKind :=
  match (hiNibble tag).toNat with
  | 4 => some .ta
  | 5 => some .tb
  | 6 => some .tc
  | 7 => some .td
  | _ => none

/-- What the tagged pairs read so far have given (rule R90). -/
structure TagAcc where
  ts : Option Byte
  t0 : Option Byte
  ifb : List IfByte
  hist : List Byte
  tck : Option Byte
  deriving DecidableEq, Repr

/-- One (tag, value) pair; `none` for an unknown tag, an interface index 0, or a repeated TS, T0 or TCK
(rule R90). -/
def tagPair (a : TagAcc) (tag v : Byte) : Option TagAcc :=
  if tag = 0x00#8 then (if a.ts = none then some { a with ts := some v } else none)
  else if tag = 0x01#8 then (if a.t0 = none then some { a with t0 := some v } else none)
  else if tag = 0x02#8 then (if a.tck = none then some { a with tck := some v } else none)
  else if tag = 0x80#8 then some { a with hist := a.hist ++ [v] }
  else
    match tagKind tag with
    | some k =>
      if loNibble tag = 0#4 then none
      else some { a with ifb := a.ifb ++ [⟨(loNibble tag).setWidth 8, k, v⟩] }
    | none => none

/-- The pairs of a tagged payload in order; `none` if its length is odd (rule R90). -/
def tagPairs (a : TagAcc) : List Byte → Option TagAcc
  | [] => some a
  | [_] => none
  | tag :: v :: rest =>
    match tagPair a tag v with
    | some a' => tagPairs a' rest
    | none => none

/-- The AtrStruct a tagged payload spells, or `none` (rule R90). -/
def taggedAtr (x : List Byte) : Option AtrStruct :=
  match tagPairs ⟨none, none, [], [], none⟩ x with
  | some a =>
    match a.ts, a.t0 with
    | some ts, some t0 => some ⟨ts, t0, a.ifb, a.hist, a.tck⟩
    | _, _ => none
  | none => none

end Sys2Proof.Machine
end

