-- ==== Sys2Proof/Machine/Flags.lean ====
section
/-! DEFINITION. The status flags (rules R22, R214, R219, R298), the numeric codes of the phase fields
(rules R23, R27, R28, R30, R31) and the error codes (rule R337). -/

namespace Sys2Proof.Machine

/-- Bit 0, `RESET_ACTIVE` (rule R22). -/
def resetActive (f : Flags) : Bool := f.getLsbD 0

/-- Bit 1, `VCC_PRESENT` (rule R22). -/
def vccPresent (f : Flags) : Bool := f.getLsbD 1

/-- Bit 2, `CLK_ACTIVE` (rule R22). -/
def clkActive (f : Flags) : Bool := f.getLsbD 2

/-- Bit 3, `CARD_INSERT` (rule R22). -/
def cardInserted (f : Flags) : Bool := f.getLsbD 3

/-- Bit 4, `RCEMU_ACTIVE` (rule R22). -/
def rcemuFlag (f : Flags) : Bool := f.getLsbD 4

/-- A status word from its five flags (rule R22). -/
def mkFlags (rst vcc clk card rcemu : Bool) : Flags :=
  BitVec.ofNat 5 (rst.toNat + 2 * vcc.toNat + 4 * clk.toNat + 8 * card.toNat + 16 * rcemu.toNat)

/-- `STATUS` with new card signal levels, the other flags kept (rule R214). -/
def withLevels (f : Flags) (rst vcc clk : Bool) : Flags :=
  mkFlags rst vcc clk (cardInserted f) (rcemuFlag f)

/-- `STATUS` with a new `CARD_INSERT` level, the other flags kept (rule R219). -/
def withCardInsert (f : Flags) (ins : Bool) : Flags :=
  mkFlags (resetActive f) (vccPresent f) (clkActive f) ins (rcemuFlag f)

/-- The reset trigger of a status report `new` after the report `old`: cold wins over warm (rule
R298). -/
def resetTrigger (old new : Flags) : Option CardResetKind :=
  if vccPresent new && !vccPresent old && !resetActive new then some .cold
  else if resetActive old && !resetActive new then some .warm
  else none

/-- The code of `TOP` (rule R23). -/
def topCode : Top → BitVec 3
  | .reset => 0
  | .waitAtr => 1
  | .inAtr => 2
  | .waitApdu => 3
  | .inApdu => 4
  | .inPts => 5

/-- The code of `ATR_STATE` (rule R27). -/
def atrStateCode : AtrState → BitVec 4
  | .waitTS => 0
  | .waitT0 => 1
  | .waitTA => 2
  | .waitTB => 3
  | .waitTC => 4
  | .waitTD => 5
  | .waitHist => 6
  | .waitTCK => 7
  | .done => 8

/-- The code of `PPS_POS` (rule R28). -/
def ppsPosCode : PpsPos → BitVec 3
  | .ptss => 0
  | .pts0 => 1
  | .pts1 => 2
  | .pts2 => 3
  | .pts3 => 4
  | .pck => 5

/-- The code of `PPS_PHASE` (rule R28). -/
def ppsPhaseCode : PpsPhase → BitVec 1
  | .req => 0
  | .resp => 1

/-- `PPS_STATE = PPS_POS | (PPS_PHASE << 4)` (rule R28). -/
def ppsStateCode (p : PpsRegs) : Byte :=
  BitVec.ofNat 8 ((ppsPosCode p.pos).toNat + 16 * (ppsPhaseCode p.phase).toNat)

/-- The code of `TPDU_STATE` (rule R30). -/
def tpduStateCode : TpduState → BitVec 3
  | .idle => 0
  | .hdrIns => 1
  | .hdrP1 => 2
  | .hdrP2 => 3
  | .hdrP3 => 4
  | .proc => 5
  | .data => 6
  | .sw2 => 7

/-- The value of `apdu_case` (rule R31). -/
def apduCaseCode : ApduCase → BitVec 3
  | .unclassified => 0
  | .case1 => 1
  | .case2 => 2
  | .case3 => 3
  | .case4 => 4

/-- `code(E)` (rule R337). -/
def errCode : ErrInfo → Nat
  | .timing _ _ => 1
  | .framing _ _ _ _ => 2
  | .protocolDesync _ => 3
  | .transport _ => 4
  | .fatalBridge _ => 5
  | .pckMismatch _ => 6

/-- The sub-kind code (rule R337); for a FramingError the bits PE, OE, FE in the places of rule R81; for
a ProtocolDesyncError there is none. -/
def errSubCode : ErrInfo → Option Nat
  | .timing .invalidWi _ => some 1
  | .timing .invalidF _ => some 2
  | .timing .invalidD _ => some 3
  | .timing .protocolViolation _ => some 4
  | .framing _ pe oe fe => some (pe.toNat * 2 ^ 10 + oe.toNat * 2 ^ 9 + fe.toNat * 2 ^ 8)
  | .protocolDesync _ => none
  | .transport .tooShort => some 1
  | .transport .unexpectedResponse => some 2
  | .transport .unknownType => some 3
  | .transport .badLength => some 4
  | .transport .badMsgLen => some 5
  | .transport .atrSetMalformed => some 6
  | .fatalBridge .lengthMismatch => some 1
  | .fatalBridge .zeroLc => some 2
  | .fatalBridge .noDataOwed => some 3
  | .fatalBridge .noOutcome => some 4
  | .pckMismatch .req => some 0
  | .pckMismatch .resp => some 1

/-- The stage code of a TimingError (rule R337). -/
def stageCode : TimingStage → Nat
  | .atr => 0
  | .pps => 1

end Sys2Proof.Machine
end

