-- ==== Sys2Proof/Machine/Ops.lean ====
section
/-! DEFINITION. The shared operations of the event rules: emitting a record, reporting an error (the
spec's only exception mechanism: no trap, no saved state, no return, rules R330 and R341), entering
the sticky model fault (rule R336), the outbound buffer, the WT timer, the clear procedures, and what
happens around a rule. -/

namespace Sys2Proof.Machine

/-- What an event answers. -/
abbrev Answer := Host.Outcome State Fault Refusal

/-- `emit(O)` (rules R11, R63): the record goes to the end of `OUTQ`. -/
def emit (r : Record) (s : State) : State := { s with outq := s.outq ++ [r] }

/-- `raise E(info)` (rule R330): `LAST_ERR` is overwritten and an `Error` record emitted; the rule that
raises goes on. -/
def raise (e : ErrInfo) (s : State) : State := emit (.error e) { s with lastErr := some e }

/-- `fault F` (rule R336): `FAULT` is set and nothing else is written. -/
def enterFault (f : ModelFault) (s : State) : State := { s with fault := some f }

/-- A slot with `FAULT` set takes no step on any event (rule R336): the event is consumed without
effect (log 5). -/
def whenLive (k : State → Answer) (s : State) : Answer :=
  if s.fault = none then k s else .next s

/-- A stopped bridge takes no step on a bridge event (rules R299, R339; log 6). -/
def whenBridgeLive (k : State → Answer) (s : State) : Answer :=
  whenLive (fun s => if s.bridge.fatal = true then .next s else k s) s

/-- `flush(reason)` (rule R231). -/
def flush (reason : FlushReason) (s : State) : State :=
  if s.obuf = [] then s else emit (.data s.obuf reason) { s with obuf := [] }

/-- `obuf_append(b)` (rule R232). -/
def obufAppend (b : Byte) (s : State) : State :=
  let s := { s with obuf := s.obuf ++ [b] }
  if s.obuf.length = s.params.obufSize then flush .full s else s

/-- WT re-arm (rule R233). -/
def rearm (s : State) : State :=
  { s with
    timer := ⟨true, s.timing.wt⟩
    outq := s.outq ++ [.timerSetWtime s.timing.wt, .timerArm] }

/-- `if S.WT_ARMED: timer(disarm); S.WT_ARMED <- 0` (rules R212, R213). -/
def disarm (s : State) : State :=
  if s.timer.armed = true then
    emit .timerDisarm { s with timer := { s.timer with armed := false } }
  else s

/-- The default load of the timing registers (rules R25, R212, R213). -/
def timingDefaults (s : State) : State := { s with timing := .default }

/-- `atr_clear()` (rule R212). -/
def atrClear (s : State) : State := { s with atr := .cleared }

/-- `pps_clear()` (rules R182, R212). -/
def ppsClear (s : State) : State := { s with pps := .cleared }

/-- `tpdu_clear()` (rule R251). -/
def tpduClear (s : State) : State := { s with tpdu := .cleared }

/-- What a byte rule or an expiry rule does: a new state, a model fault in place of the whole event
(rule R336), or no rule of the spec for this phase vector (log 9). -/
inductive Effect where
  | done (s : State)
  | faulted (f : ModelFault)
  | noRule
  deriving DecidableEq, Repr

/-- An effect on the state `s` as the answer of the event: a model fault discards every write of the
event but `FAULT` (rule R336). -/
def settle (s : State) : Effect → Answer
  | .done t => .next t
  | .faulted f => .next (enterFault f s)
  | .noRule => .fault .noRule

/-- A line byte handed to a rule: the rule's effects, then the re-arm unless the phase is now `Reset`
(rules R210, R233). -/
def handLine (rule : State → Effect) (s : State) : Answer :=
  match rule s with
  | .done t => .next (if t.top = .reset then t else rearm t)
  | .faulted f => settle s (.faulted f)
  | .noRule => settle s .noRule

/-- An admitted WT expiry: one shot, then the rule (rule R225). -/
def handExpiry (rule : State → Effect) (s : State) : Answer :=
  settle s (rule { s with timer := { s.timer with armed := false } })

end Sys2Proof.Machine
end

