-- ==== Sys2Proof/Machine/Timing.lean ====
section
/-! DEFINITION. U1, the timing and parameter table (40_timing_table.md). -/

namespace Sys2Proof.Machine

/-- `FI_TABLE` (rule R120). -/
def fiTable : List Half :=
  [372, 372, 558, 744, 1116, 1488, 1860, 0, 0, 512, 768, 1024, 1536, 2048, 0, 0]

/-- `DI_TABLE` (rule R120), its tail the parameter `P_DI_TAIL`. -/
def diTable (t : DiTail) : List Byte :=
  [0, 1, 2, 4, 8, 16, 32, 64, 12, 20, t.t0, t.t1, t.t2, t.t3, t.t4, t.t5]

/-- `Fi(idx)` (rule R121); the table has an entry for every 4-bit index. -/
def fiOf (idx : Nibble) : Half := fiTable.getD idx.toNat 0

/-- `Di(idx)` (rule R121). -/
def diOf (t : DiTail) (idx : Nibble) : Byte := (diTable t).getD idx.toNat 0

/-- `valid_f(f)` (rule R122). -/
def validF (f : Half) : Bool := f != 0 && fiTable.contains f

/-- `valid_d(d)` (rule R123). -/
def validD (t : DiTail) (d : Byte) : Bool := d != 0 && (diTable t).contains d

/-- `calculate_wt(wi, fi, di, f, d)` (rule R124): the checks in order, then the product of the two
truncated quotients, exact in Nat and narrowed to 32 bits, where it always fits (rule R126). -/
def calcWt (t : DiTail) (wi : Byte) (fi : Half) (di : Byte) (f : Half) (d : Byte) : TimingResult :=
  if wi = 0 then .err .invalidWi
  else if !validF fi || !validF f then .err .invalidF
  else if !validD t di || !validD t d then .err .invalidD
  else if fi.toNat < f.toNat ∨ di.toNat < d.toNat then .err .protocolViolation
  else .ok (BitVec.ofNat 32
    (((wi.toNat * 960) * (fi.toNat / f.toNat)) * (di.toNat / d.toNat)))

/-- `fidi_to_ratio(fidi)` (rule R125): divide below Di index 8, multiply from it on. -/
def fidiToRatio (t : DiTail) (fidi : Byte) : TimingResult :=
  let f := fiOf (hiNibble fidi)
  let d := diOf t (loNibble fidi)
  if f = 0 then .err .invalidF
  else if d = 0 then .err .invalidD
  else if (loNibble fidi).toNat < 8 then .ok (BitVec.ofNat 32 (f.toNat / d.toNat))
  else .ok (BitVec.ofNat 32 (f.toNat * d.toNat))

end Sys2Proof.Machine
end

