-- ==== Sys2Proof/Machine/Atr.lean ====
section
/-! DEFINITION. U2, the ATR parser and builder (41_atr.md): the byte rules on the ATR registers, the
completion and commit, the parser and builder functions. -/

namespace Sys2Proof.Machine

/-- `hist_or_end()` (rule R141). -/
def histOrEnd (r : AtrRegs) : AtrState :=
  if r.k ≠ 0 then .waitHist else if r.tckNeeded = true then .waitTCK else .done

/-- The sub-state that waits for the first interface byte of the presence nibble `ATR_Y` at or after
kind `k0`, or for what follows the interface bytes (rules R141, R144, R148). -/
def waitFrom (r : AtrRegs) (k0 : Nat) : AtrState :=
  match firstPresent r.y k0 with
  | some k => waitOf k
  | none => histOrEnd r

/-- `after(k)` (rule R141). -/
def afterKind (r : AtrRegs) (k : IfKind) : AtrState := waitFrom r (kindNum k + 1)

/-- The TS byte (rule R143), after the append. -/
def takeTs (r : AtrRegs) : AtrRegs := { r with st := .waitT0 }

/-- The T0 byte (rule R144), after the append. -/
def takeT0 (b : Byte) (r : AtrRegs) : AtrRegs :=
  let r := { r with y := hiNibble b, k := loNibble b, idx := 1 }
  { r with st := waitFrom r 0 }

/-- A TAi byte (rule R145), after the append. -/
def takeTa (b : Byte) (r : AtrRegs) : AtrRegs :=
  { r with ta1 := if r.idx = 1 then some b else r.ta1, st := afterKind r .ta }

/-- A TBi byte (rule R146), after the append. -/
def takeTb (r : AtrRegs) : AtrRegs := { r with st := afterKind r .tb }

/-- A TCi byte (rule R147), after the append; `wiIdx` is `P_WI_TC_INDEX`. -/
def takeTc (wiIdx : Byte) (b : Byte) (r : AtrRegs) : AtrRegs :=
  { r with wi := if r.idx = wiIdx then some b else r.wi, st := afterKind r .tc }

/-- A TDi byte (rule R148), after the append. When TCK is needed is PRESUMED (log 17, unsafe). -/
def takeTd (b : Byte) (r : AtrRegs) : AtrRegs :=
  let r := { r with
    tckNeeded := if loNibble b ≠ 0 then true else r.tckNeeded
    y := hiNibble b
    idx := r.idx + 1 }
  { r with st := waitFrom r 0 }

/-- A historical byte (rule R149), after the append. -/
def takeHist (r : AtrRegs) : AtrRegs :=
  let r := { r with k := r.k - 1 }
  { r with st := if r.k = 0 then (if r.tckNeeded = true then .waitTCK else .done) else r.st }

/-- The TCK byte (rule R150), after the append. -/
def takeTck (r : AtrRegs) : AtrRegs := { r with st := .done }

/-- The byte rule `ATR_STATE` selects (rule R222), after the append. In `Done` no byte belongs to the
ATR any more; the callers never pass one. -/
def takeAtrByte (wiIdx : Byte) (b : Byte) (r : AtrRegs) : AtrRegs :=
  match r.st with
  | .waitTS => takeTs r
  | .waitT0 => takeT0 b r
  | .waitTA => takeTa b r
  | .waitTB => takeTb r
  | .waitTC => takeTc wiIdx b r
  | .waitTD => takeTd b r
  | .waitHist => takeHist r
  | .waitTCK => takeTck r
  | .done => r

/-- `atr_commit()` (rule R152): all or nothing. -/
def atrCommit (s : State) : State :=
  let (fi, di) := match s.atr.ta1 with
    | some t => (hiNibble t, loNibble t)
    | none => (s.timing.capFi, s.timing.capDi)
  let wi := match s.atr.wi with
    | some v => v
    | none => s.timing.wi
  match calcWt s.params.diTail wi (fiOf fi) (diOf s.params.diTail di) 372#16 1#8 with
  | .ok wt => { s with timing := { s.timing with capFi := fi, capDi := di, wi := wi, wt := wt } }
  | .err e => raise (.timing e .atr) s

/-- ATR completion (rule R151). -/
def atrDone (s : State) : State :=
  let s := flush .atrDone s
  let s := emit (.atr s.atr.buf s.atr.buf.length) s
  let s := atrCommit s
  tpduClear { s with top := .waitApdu }

/-- An ATR byte rule on the slot: `atr_append(b)` (rule R142), the rule on the registers, and the
completion if it reached `Done` (rule R151). -/
def atrRule (take : AtrRegs → AtrRegs) (b : Byte) (s : State) : Effect :=
  if s.atr.buf.length = s.params.atrMax then .faulted .atrOverflow
  else
    let s := { s with atr := take { s.atr with buf := s.atr.buf ++ [b] } }
    .done (if s.atr.st = .done then atrDone s else s)

/-- Rule R143 on the slot. -/
def ruleTs (b : Byte) : State → Effect := atrRule takeTs b

/-- Rule R144 on the slot. -/
def ruleT0 (b : Byte) : State → Effect := atrRule (takeT0 b) b

/-- Rule R145 on the slot. -/
def ruleTa (b : Byte) : State → Effect := atrRule (takeTa b) b

/-- Rule R146 on the slot. -/
def ruleTb (b : Byte) : State → Effect := atrRule takeTb b

/-- Rule R147 on the slot. -/
def ruleTc (b : Byte) (s : State) : Effect := atrRule (takeTc s.params.wiTcIndex b) b s

/-- Rule R148 on the slot. -/
def ruleTd (b : Byte) : State → Effect := atrRule (takeTd b) b

/-- Rule R149 on the slot. -/
def ruleHist (b : Byte) : State → Effect := atrRule takeHist b

/-- Rule R150 on the slot. -/
def ruleTck (b : Byte) : State → Effect := atrRule takeTck b

/-- The AtrStruct before any byte is read; TS and T0 are overwritten by the first two bytes. -/
def emptyAtr : AtrStruct := ⟨0, 0, [], [], none⟩

/-- Record one byte into the AtrStruct under the registers as they were before it (rule R154). -/
def recordAtrByte (r : AtrRegs) (b : Byte) (a : AtrStruct) : AtrStruct :=
  match r.st with
  | .waitTS => { a with ts := b }
  | .waitT0 => { a with t0 := b }
  | .waitTA => { a with ifb := a.ifb ++ [⟨r.idx, .ta, b⟩] }
  | .waitTB => { a with ifb := a.ifb ++ [⟨r.idx, .tb, b⟩] }
  | .waitTC => { a with ifb := a.ifb ++ [⟨r.idx, .tc, b⟩] }
  | .waitTD => { a with ifb := a.ifb ++ [⟨r.idx, .td, b⟩] }
  | .waitHist => { a with hist := a.hist ++ [b] }
  | .waitTCK => { a with tck := some b }
  | .done => a

/-- `atr_parse` from the registers `r`, the structure `a` read so far and `used` bytes consumed (rule
R154). -/
def parseFrom (atrMax : Nat) (wiIdx : Byte) (r : AtrRegs) (a : AtrStruct) (used : Nat) :
    List Byte → ParseResult
  | [] => if r.st = .done then .complete a else .incomplete r.st
  | b :: x =>
    if r.st = .done then .trailing a used
    else if r.buf.length = atrMax then .overflow
    else parseFrom atrMax wiIdx (takeAtrByte wiIdx b { r with buf := r.buf ++ [b] })
      (recordAtrByte r b a) (used + 1) x

/-- `atr_parse(x)` (rule R154), on a private copy of the ATR registers. -/
def atrParse (p : Params) (x : List Byte) : ParseResult :=
  parseFrom p.atrMax p.wiTcIndex .cleared emptyAtr 0 x

/-- The walk of `atr_wf`'s check 2 (rule R157) from presence nibble `y`, index `i` and kind `k0`: every
entry is the next expected one and none is missing. -/
def ifbExpected (y : Nibble) (i : Byte) (k0 : Nat) : List IfByte → Bool
  | [] => (firstPresent y k0).isNone
  | e :: rest =>
    match firstPresent y k0 with
    | none => false
    | some k =>
      e.i == i && e.kind == k &&
        (match k with
        | .td => ifbExpected (hiNibble e.value) (i + 1) 0 rest
        | .ta => ifbExpected y i 1 rest
        | .tb => ifbExpected y i 2 rest
        | .tc => ifbExpected y i 3 rest)

/-- Some TDi of the structure advertises a protocol other than T=0 (rule R157, check 3). -/
def needsTck (a : AtrStruct) : Bool :=
  a.ifb.any fun e => e.kind == .td && loNibble e.value != 0

/-- The number of bytes an AtrStruct builds to (rule R157, check 4). -/
def atrLength (a : AtrStruct) : Nat :=
  2 + a.ifb.length + a.hist.length + (if a.tck.isSome then 1 else 0)

/-- `atr_wf(s)` (rule R157). -/
def atrWf (atrMax : Nat) (a : AtrStruct) : Bool :=
  (loNibble a.t0).toNat == a.hist.length
  && ifbExpected (hiNibble a.t0) 1 0 a.ifb
  && a.tck.isSome == needsTck a
  && decide (atrLength a ≤ atrMax)

/-- The bytes of an AtrStruct in line order (rule R156). -/
def atrBytes (a : AtrStruct) : List Byte :=
  [a.ts, a.t0] ++ a.ifb.map IfByte.value ++ a.hist ++ a.tck.toList

/-- `atr_build(s)` (rule R156). -/
def atrBuild (p : Params) (a : AtrStruct) : BuildResult :=
  if atrWf p.atrMax a then .bytes (atrBytes a) else .illFormed

/-- The `ATR_BUILD` port: the tagged payload, then the builder (rules R90, R156). -/
def atrBuildTagged (p : Params) (x : List Byte) : BuildResult :=
  match taggedAtr x with
  | some a => atrBuild p a
  | none => .illFormed

/-- `ATR_SET` (rule R160). -/
def setAtr (x : List Byte) (s : State) : State :=
  if x = [] then { s with atrCfg := [] }
  else
    match atrParse s.params x with
    | .complete _ => { s with atrCfg := x }
    | .trailing _ _ => raise (.transport .atrSetMalformed) s
    | .incomplete _ => raise (.transport .atrSetMalformed) s
    | .overflow => raise (.transport .atrSetMalformed) s

/-- The ATR an emulated card sends (rule R161). -/
def emulatedAtr (s : State) : List Byte :=
  match s.atrCfg with
  | [] => s.params.defaultAtr
  | b :: x => b :: x

/-- One `send_byte` record for each byte, in order (rules R161, R189). -/
def sendBytes (x : List Byte) (s : State) : State := { s with outq := s.outq ++ x.map .sendByte }

end Sys2Proof.Machine
end

