-- ==== Sys2Proof/Machine/Pps.lean ====
section
/-! DEFINITION. U3, the PPS/PTS negotiator (42_pps.md). -/

namespace Sys2Proof.Machine

/-- `next_pos(p, pts0)` (rule R181). PCK is the terminal field of a phase (rule R180): its rules set the
position themselves and never ask for a next one (log 19). -/
def nextPos (p : PpsPos) (t : Byte) : PpsPos :=
  match p with
  | .ptss => .pts0
  | .pts0 => if hasPts1 t then .pts1 else if hasPts2 t then .pts2 else if hasPts3 t then .pts3 else .pck
  | .pts1 => if hasPts2 t then .pts2 else if hasPts3 t then .pts3 else .pck
  | .pts2 => if hasPts3 t then .pts3 else .pck
  | .pts3 => .pck
  | .pck => .pck

/-- Store the byte of position `p` (rule R181). -/
def putPps (x : PpsBytes) (p : PpsPos) (b : Byte) : PpsBytes :=
  match p with
  | .ptss => { x with ptss := some b }
  | .pts0 => { x with pts0 := some b }
  | .pts1 => { x with pts1 := some b }
  | .pts2 => { x with pts2 := some b }
  | .pts3 => { x with pts3 := some b }
  | .pck => { x with pck := some b }

/-- `X`: the bytes of the phase being read (42_pps.md, introduction). -/
def phaseBytes (r : PpsRegs) : PpsBytes :=
  match r.phase with
  | .req => r.req
  | .resp => r.resp

/-- `pps_take(b)` (rule R181). -/
def ppsTake (b : Byte) (r : PpsRegs) : PpsRegs :=
  match r.phase with
  | .req => { r with req := putPps r.req r.pos b, xor := r.xor ^^^ b }
  | .resp => { r with resp := putPps r.resp r.pos b, xor := r.xor ^^^ b }

/-- The bytes present, in position order (rules R188, R189). -/
def presentBytes (x : PpsBytes) : List Byte :=
  x.ptss.toList ++ x.pts0.toList ++ x.pts1.toList ++ x.pts2.toList ++ x.pts3.toList ++ x.pck.toList

/-- PPS entry, the request's PTSS (rule R182). -/
def rulePtssReq (s : State) : State :=
  let s := ppsClear s
  { s with pps := { ppsTake 0xFF#8 s.pps with pos := .pts0 }, top := .inPts }

/-- The byte at PTS0 (rule R183). -/
def rulePts0 (b : Byte) (s : State) : Effect :=
  .done { s with pps := { ppsTake b s.pps with pos := nextPos .pts0 b } }

/-- A byte at a position whose successor the phase's PTS0 decides (rules R184, R185). -/
def rulePtsNext (p : PpsPos) (b : Byte) (s : State) : Effect :=
  match (phaseBytes s.pps).pts0 with
  | some t => .done { s with pps := { ppsTake b s.pps with pos := nextPos p t } }
  | none => .noRule

/-- The byte at PTS1 (rule R184). -/
def rulePts1 (b : Byte) : State → Effect := rulePtsNext .pts1 b

/-- The byte at PTS2 (rule R185). -/
def rulePts2 (b : Byte) : State → Effect := rulePtsNext .pts2 b

/-- The byte at PTS3 (rule R186). -/
def rulePts3 (b : Byte) (s : State) : Effect :=
  .done { s with pps := { ppsTake b s.pps with pos := .pck } }

/-- PPS response transmission (rule R189). -/
def sendPpsResponse (s : State) : State :=
  if s.mode = .cardEmu then
    sendBytes (ppsResponse s.params.ppsResponse (presentBytes s.pps.req)) s
  else s

/-- The request's PCK (rules R187, R192; the check is PRESUMED, log 17, unsafe). -/
def rulePckReq (b : Byte) (s : State) : Effect :=
  let pps := ppsTake b s.pps
  let ok := pps.xor == 0
  let s := { s with pps := { pps with reqOk := ok } }
  let s := if ok then s else raise (.pckMismatch .req) s
  .done (sendPpsResponse { s with pps := { s.pps with phase := .resp, pos := .ptss, xor := 0 } })

/-- The response's PTSS (rule R190). -/
def rulePtssResp (b : Byte) (s : State) : Effect :=
  .done { s with pps := { ppsTake b s.pps with pos := .pts0 } }

/-- The PPS commit of response PTS1 `p` (rule R188). The inner failure cannot occur: `calcWt` has
checked both table entries (rule R188). -/
def ppsCommit (p : Byte) (s : State) : State :=
  let t := s.params.diTail
  match calcWt t s.timing.wi (fiOf s.timing.capFi) (diOf t s.timing.capDi)
      (fiOf (hiNibble p)) (diOf t (loNibble p)) with
  | .ok wt =>
    match fidiToRatio t p with
    | .ok r =>
      emit (.fidi p r) (emit (.uartSetFidi r)
        { s with timing :=
          { s.timing with opFi := hiNibble p, opDi := loNibble p, wt := wt, fidiRatio := r } })
    | .err e => raise (.timing e .pps) s
  | .err e => raise (.timing e .pps) s

/-- The response's PCK: completion and commit (rules R188, R192). -/
def rulePckResp (b : Byte) (s : State) : Effect :=
  let s := { s with pps := ppsTake b s.pps }
  let ok := s.pps.xor == 0
  let s := if ok then s else raise (.pckMismatch .resp) s
  let s := flush .ppsDone s
  let s := emit (.pps (presentBytes s.pps.req) (presentBytes s.pps.resp)) s
  let s := match s.pps.resp.pts1 with
    | some p => if s.pps.reqOk && ok then ppsCommit p s else s
    | none => s
  .done (ppsClear { s with top := .waitApdu })

/-- The PPS byte rule `PPS_POS` selects (rule R224). At PTSS in the request phase there is none: the
request's PTSS was taken on entry. -/
def rulePps (b : Byte) (s : State) : Effect :=
  match s.pps.pos with
  | .pts0 => rulePts0 b s
  | .pts1 => rulePts1 b s
  | .pts2 => rulePts2 b s
  | .pts3 => rulePts3 b s
  | .pck =>
    match s.pps.phase with
    | .req => rulePckReq b s
    | .resp => rulePckResp b s
  | .ptss =>
    match s.pps.phase with
    | .req => .noRule
    | .resp => rulePtssResp b s

end Sys2Proof.Machine
end

