-- ==== Sys2Proof/Machine/Tpdu.lean ====
section
/-! DEFINITION. U5, the line-level TPDU frame reassembler (44_tpdu.md). Every rule here is entered with
the byte already appended to `OBUF` (rules R220, R223). -/

namespace Sys2Proof.Machine

/-- `classify_pb(ins, b)` (rules R98, R256): the first match wins. NULL as 0x60 is PRESUMED (log 17, unsafe). -/
def classifyPb (ins b : Byte) : PbClass :=
  if b = 0x60#8 then .null
  else if hiNibble b = 6#4 ∨ hiNibble b = 9#4 then .sw1
  else if b = ins then .ackAll
  else if b = ins ^^^ 0xFF#8 then .ackOne
  else .other

/-- `remaining()` (rule R264); the rule gives no value for an unclassified context (log 9). -/
def remaining (c : ApduCtx) : Option Word :=
  match c.apduCase with
  | .unclassified => none
  | .case1 => some 0
  | .case2 => some (c.le.tot - c.le.cur)
  | .case3 => some (c.lc.tot - c.lc.cur)
  | .case4 => some (c.lc.tot - c.lc.cur)

/-- `store(b)` (rule R265); the rule stores nothing in Case 1 or unclassified (log 9). -/
def storeByte (b : Byte) (c : ApduCtx) : Option ApduCtx :=
  match c.apduCase with
  | .unclassified => none
  | .case1 => none
  | .case2 => some { c with de := c.de ++ [b], le := { c.le with cur := c.le.cur + 1 } }
  | .case3 => some { c with dc := c.dc ++ [b], lc := { c.lc with cur := c.lc.cur + 1 } }
  | .case4 => some { c with dc := c.dc ++ [b], lc := { c.lc with cur := c.lc.cur + 1 } }

/-- The CLA byte (rule R251). -/
def ruleCla (b : Byte) (s : State) : State :=
  { s with tpdu := ⟨.hdrIns, 0, { ApduCtx.cleared with hdr := ⟨b, 0, 0, 0, 0⟩ }⟩ }

/-- Replace the line context and the sub-state. -/
def setTpdu (st : TpduState) (c : ApduCtx) (s : State) : State :=
  { s with tpdu := { s.tpdu with st := st, ctx := c } }

/-- The byte in `HdrINS` (rule R252). -/
def ruleIns (b : Byte) (s : State) : Effect :=
  let c := s.tpdu.ctx
  .done (setTpdu .hdrP1 { c with hdr := { c.hdr with ins := b } } s)

/-- The byte in `HdrP1` (rule R253). -/
def ruleP1 (b : Byte) (s : State) : Effect :=
  let c := s.tpdu.ctx
  .done (setTpdu .hdrP2 { c with hdr := { c.hdr with p1 := b } } s)

/-- The byte in `HdrP2` (rule R254). -/
def ruleP2 (b : Byte) (s : State) : Effect :=
  let c := s.tpdu.ctx
  .done (setTpdu .hdrP3 { c with hdr := { c.hdr with p2 := b } } s)

/-- A short Le: 0 means 256 (rules R255, R292). -/
def shortLe (b : Byte) : Nat := if b = 0 then 256 else b.toNat

/-- The byte in `HdrP3`: header classification (rule R255). -/
def ruleP3 (b : Byte) (s : State) : Effect :=
  let c := s.tpdu.ctx
  let h := { c.hdr with p3 := b }
  match lineDir s.params.lineCase h with
  | .fromCard => .done (setTpdu .proc { c with
      hdr := h, apduCase := .case2
      le := { c.le with tot := BitVec.ofNat 32 (shortLe b) }
      lc := { c.lc with tot := 0 } } s)
  | .toCard => .done (setTpdu .proc { c with
      hdr := h, apduCase := .case3
      lc := { c.lc with tot := BitVec.ofNat 32 b.toNat }
      le := { c.le with tot := 0 } } s)

/-- Procedure byte NULL (rule R257): nothing changes. -/
def rulePbNull (s : State) : Effect := .done s

/-- Procedure byte SW1 (rule R258). -/
def rulePbSw1 (b : Byte) (s : State) : Effect :=
  .done (setTpdu .sw2 { s.tpdu.ctx with sw0 := some b } s)

/-- A data burst of `n` bytes is granted (rules R259, R260). -/
def grant (n : Word) (s : State) : State :=
  { s with tpdu := { s.tpdu with dataLeft := n, st := .data } }

/-- Procedure byte ACK_ALL (rule R259). -/
def rulePbAckAll (s : State) : Effect :=
  match remaining s.tpdu.ctx with
  | none => .noRule
  | some n => .done (if n = 0 then s else grant n s)

/-- Procedure byte ACK_ONE (rule R260). -/
def rulePbAckOne (s : State) : Effect :=
  match remaining s.tpdu.ctx with
  | none => .noRule
  | some n => .done (if n = 0 then s else grant 1 s)

/-- Procedure byte OTHER (rule R261). -/
def rulePbOther (b : Byte) (s : State) : Effect :=
  let s := raise (.protocolDesync b) s
  match s.params.unexpectedPb with
  | .asSw1 => rulePbSw1 b s
  | .asNull => rulePbNull s

/-- The procedure byte rule the class selects (rule R98). -/
def ruleProc (b : Byte) (s : State) : Effect :=
  match classifyPb s.tpdu.ctx.hdr.ins b with
  | .null => rulePbNull s
  | .sw1 => rulePbSw1 b s
  | .ackAll => rulePbAckAll s
  | .ackOne => rulePbAckOne s
  | .other => rulePbOther b s

/-- The byte in `Data` (rule R262). -/
def ruleData (b : Byte) (s : State) : Effect :=
  match storeByte b s.tpdu.ctx with
  | none => .noRule
  | some c =>
    let left := s.tpdu.dataLeft - 1
    .done { s with tpdu := ⟨if left = 0 then .proc else s.tpdu.st, left, c⟩ }

/-- The byte in `Sw2`: TPDU completion (rule R263). -/
def ruleSw2 (b : Byte) (s : State) : Effect :=
  let s := emit (.tpduDone { s.tpdu.ctx with sw1 := some b }) s
  .done (tpduClear { s with top := .waitApdu })

/-- The TPDU rule `TPDU_STATE` selects (rule R220). In `Idle` there is none: `InApdu` is entered with
the CLA byte. -/
def ruleTpdu (b : Byte) (s : State) : Effect :=
  match s.tpdu.st with
  | .idle => .noRule
  | .hdrIns => ruleIns b s
  | .hdrP1 => ruleP1 b s
  | .hdrP2 => ruleP2 b s
  | .hdrP3 => ruleP3 b s
  | .proc => ruleProc b s
  | .data => ruleData b s
  | .sw2 => ruleSw2 b s

end Sys2Proof.Machine
end

