-- ==== Sys2Proof/Machine/Line.lean ====
section
/-! DEFINITION. U4, the phase classifier (43_phase_classifier.md): the entry procedures of `Reset` and
`WaitAtr`, and the dispatch of the `LINE_BYTE`, `WT_EXPIRY`, `SIGNAL` and `CARD_INSERT` events. -/

namespace Sys2Proof.Machine

/-- `enter_reset()` (rule R212). -/
def enterReset (s : State) : State :=
  let s := match s.params.resetFlush with
    | .flush => flush .reset s
    | .discard => { s with obuf := [] }
  let s := emit (.uartEnable false false) s
  let s := disarm s
  let s := tpduClear (ppsClear (atrClear (timingDefaults s)))
  { s with top := .reset }

/-- Transmission of the emulated ATR (rule R161). -/
def sendAtr (s : State) : State :=
  if s.mode = .cardEmu then sendBytes (emulatedAtr s) s else s

/-- `enter_wait_atr()` (rule R213). -/
def enterWaitAtr (s : State) : State :=
  let s := emit (.uartSetFidi 372) (timingDefaults s)
  let s := disarm s
  let s := { s with timer := { s.timer with load := 9600 } }
  let s := tpduClear (ppsClear (atrClear s))
  let s := emit (.uartEnable true (s.mode == .cardEmu)) s
  sendAtr { s with top := .waitAtr }

/-- Framing error (rule R211): reported, and the byte is discarded. -/
def framingError (b : Byte) (pe oe fe : Bool) (s : State) : State :=
  raise (.framing b pe oe fe) s

/-- Line byte in `WaitAtr` (rule R221): the first ATR byte. -/
def ruleWaitAtr (b : Byte) (s : State) : Effect := ruleTs b { s with top := .inAtr }

/-- Line byte in `InAtr` (rule R222). `Done` never holds there. -/
def ruleInAtr (b : Byte) (s : State) : Effect :=
  match s.atr.st with
  | .waitTS => ruleTs b s
  | .waitT0 => ruleT0 b s
  | .waitTA => ruleTa b s
  | .waitTB => ruleTb b s
  | .waitTC => ruleTc b s
  | .waitTD => ruleTd b s
  | .waitHist => ruleHist b s
  | .waitTCK => ruleTck b s
  | .done => .noRule

/-- The byte other than 0xFF in `WaitApdu` (rule R223): CLA. -/
def ruleFirstTpdu (b : Byte) (s : State) : Effect :=
  .done (ruleCla b { obufAppend b s with top := .inApdu })

/-- Line byte in `WaitApdu` (rule R223). -/
def ruleWaitApdu (b : Byte) (s : State) : Effect :=
  if b = 0xFF#8 then .done (rulePtssReq s) else ruleFirstTpdu b s

/-- Line byte in `InApdu` (rule R220): a TPDU rule after the append to `OBUF`. -/
def ruleAppended (rule : State → Effect) (b : Byte) (s : State) : Effect := rule (obufAppend b s)

/-- Line byte in `InApdu` (rule R220). -/
def ruleInApdu (b : Byte) (s : State) : Effect := ruleAppended (ruleTpdu b) b s

/-- Line byte in `InPts` (rule R224). -/
def ruleInPts (b : Byte) (s : State) : Effect := rulePps b s

/-- The error-free line byte in each phase (rule R210). -/
def linePhase (b : Byte) (s : State) : Answer :=
  match s.top with
  | .reset => .next s
  | .waitAtr => handLine (ruleWaitAtr b) s
  | .inAtr => handLine (ruleInAtr b) s
  | .waitApdu => handLine (ruleWaitApdu b) s
  | .inApdu => handLine (ruleInApdu b) s
  | .inPts => handLine (ruleInPts b) s

/-- The `LINE_BYTE` event (rules R210, R211, R236, R339). DIR has no effect (rule R81). -/
def lineEvent (_dir pe oe fe : Bool) (b : Byte) (s : State) : Answer :=
  whenLive (fun s =>
    if s.top = .reset then .next s
    else if pe || oe || fe then .next (framingError b pe oe fe s)
    else linePhase b s) s

/-- A phase row of `LINE_BYTE`: where the row's condition holds, its rule; elsewhere the same word is
the event of rule R210 (log 7). -/
def lineRow (applies : State → Bool) (rule : State → Effect) (dir : Bool) (b : Byte) (s : State) :
    Answer :=
  if s.fault = none ∧ applies s = true then handLine rule s
  else lineEvent dir false false false b s

/-- WT expiry in `WaitAtr` (rule R226). -/
def expiryWaitAtr (s : State) : Effect := .done s

/-- WT expiry in `InAtr` (rule R227). -/
def expiryInAtr (s : State) : Effect :=
  match s.params.wtInAtr with
  | .ignore => .done s
  | .abortToWaitAtr => .done (enterWaitAtr s)

/-- WT expiry in `WaitApdu` (rule R228). -/
def expiryWaitApdu (s : State) : Effect := .done (flush .wtExpiry s)

/-- WT expiry in `InApdu` (rule R229). -/
def expiryInApdu (s : State) : Effect :=
  .done (tpduClear { flush .wtExpiry s with top := .waitApdu })

/-- WT expiry in `InPts` (rules R191, R230). -/
def expiryInPts (s : State) : Effect :=
  .done (flush .wtExpiry (ppsClear { s with top := .waitApdu }))

/-- The admitted expiry in each phase (rule R225). In `Reset` the timer is never armed. -/
def expiryPhase (s : State) : Answer :=
  match s.top with
  | .reset => settle s .noRule
  | .waitAtr => handExpiry expiryWaitAtr s
  | .inAtr => handExpiry expiryInAtr s
  | .waitApdu => handExpiry expiryWaitApdu s
  | .inApdu => handExpiry expiryInApdu s
  | .inPts => handExpiry expiryInPts s

/-- The `WT_EXPIRY` event (rule R225): dropped unless the timer is armed. -/
def expiryEvent (s : State) : Answer :=
  whenLive (fun s => if s.timer.armed = true then expiryPhase s else .next s) s

/-- A phase row of `WT_EXPIRY` (log 7). -/
def expiryRow (top : Top) (rule : State → Effect) (s : State) : Answer :=
  if s.fault = none ∧ s.timer.armed = true ∧ s.top = top then handExpiry rule s else expiryEvent s

/-- New levels in `STATUS`, and the `Change` record (rules R214, R235). -/
def recordLevels (rst vcc clk : Bool) (s : State) : State :=
  let st := withLevels s.status rst vcc clk
  emit (.change st) { s with status := st }

/-- RESET asserted, or VCC absent: `Reset` entry unless already there (rules R215, R217). -/
def fallToReset (s : State) : State := if s.top = .reset then s else enterReset s

/-- RESET deasserted with VCC present: `wasReset` is the previous `RESET_ACTIVE` (rule R216). -/
def releaseReset (wasReset : Bool) (s : State) : State :=
  if wasReset = true ∧ s.top = .reset then enterWaitAtr s else s

/-- The `SIGNAL` event (rule R214), its three tests in order. -/
def signalEvent (clk vcc rst : Bool) (s : State) : Answer :=
  whenLive (fun s =>
    let t := recordLevels rst vcc clk s
    .next
      (if rst = true then fallToReset t
      else if vcc = false then fallToReset t
      else releaseReset (resetActive s.status) t)) s

/-- The `CARD_INSERT` event (rules R219, R235). -/
def cardInsertEvent (ins : Bool) (s : State) : Answer :=
  whenLive (fun s =>
    let st := withCardInsert s.status ins
    .next (emit (.change st) { s with status := st })) s

end Sys2Proof.Machine
end

