-- ==== Sys2Proof/Machine/Bridge.lean ====
section
/-! DEFINITION. U6, the APDU case discriminator and the host-side bridge dispatcher
(45_apdu_dispatch.md, sections 1 and 2). -/

namespace Sys2Proof.Machine

/-- The k-th byte of a segment as a number; every use stands behind a check of the length. -/
def segByte (seg : List Byte) (k : Nat) : Nat := (seg.getD k 0#8).toNat

/-- `L(k)`, the 16-bit big-endian length at `k` (rules R66, R290). -/
def segLen (seg : List Byte) (k : Nat) : Nat := segByte seg k * 256 + segByte seg (k + 1)

/-- A short Le as a number: 0 means 256 (rule R292). -/
def leShort (v : Nat) : Nat := if v = 0 then 256 else v

/-- An extended Le as a number: 0 means 65536 (rule R292). -/
def leExt (v : Nat) : Nat := if v = 0 then 65536 else v

/-- The extended form, P3 = 0 and at least 7 bytes (rule R290). -/
def classifyExt (seg : List Byte) : CaseResult :=
  let n := seg.length
  let lc := segLen seg 5
  if n = 7 then .case ⟨.case2, 0, leExt lc, true, 7, 0⟩
  else if lc = 0 then .malformed .zeroLc
  else if n ≤ 7 + lc then .case ⟨.case3, lc, 0, true, 7, n - 7⟩
  else if n = 9 + lc then .case ⟨.case4, lc, leExt (segLen seg (n - 2)), true, 7, lc⟩
  else .malformed .lengthMismatch

/-- `classify_case(B, wLength)` (rules R290, R291): the first matching line wins. -/
def classifyCase (seg : List Byte) : CaseResult :=
  let n := seg.length
  let p3 := if 5 ≤ n then segByte seg 4 else 0
  if n < 4 then .malformed .tooShort
  else if n = 4 then .case ⟨.case1, 0, 0, false, 4, 0⟩
  else if n = 5 then .case ⟨.case2, 0, leShort p3, false, 5, 0⟩
  else if n = 6 then .case ⟨.case3, p3, 0, false, 5, min 1 p3⟩
  else if p3 ≠ 0 then
    if n ≤ 5 + p3 then .case ⟨.case3, p3, 0, false, 5, n - 5⟩
    else if n = 6 + p3 then .case ⟨.case4, p3, leShort (segByte seg (n - 1)), false, 5, p3⟩
    else .malformed .lengthMismatch
  else classifyExt seg

/-- FatalBridgeError: reported, and the bridge stops for good (rule R299). -/
def bridgeFatal (e : BridgeErr) (s : State) : State :=
  let s := raise (.fatalBridge e) s
  { s with bridge := { s.bridge with fatal := true } }

/-- The low byte of a counter. -/
def lowByte (v : Word) : Byte := v.extractLsb' 0 8

/-- The second byte of a counter. -/
def highByte (v : Word) : Byte := v.extractLsb' 8 8

/-- A length field of `capdu()`: one byte, or 00 and two bytes (rule R296). -/
def lengthField (ext : Bool) (v : Word) : List Byte :=
  if ext = true then [0x00#8, highByte v, lowByte v] else [lowByte v]

/-- The trailing Le of Case 4: one byte, or two (rule R296). -/
def trailingLe (ext : Bool) (v : Word) : List Byte :=
  if ext = true then [highByte v, lowByte v] else [lowByte v]

/-- `capdu()` (rule R296); no row of it is for an unclassified context (log 9). -/
def capdu (c : ApduCtx) (ext : Bool) : Option (List Byte) :=
  let hdr4 := [c.hdr.cla, c.hdr.ins, c.hdr.p1, c.hdr.p2]
  match c.apduCase with
  | .unclassified => none
  | .case1 => some hdr4
  | .case2 => some (hdr4 ++ lengthField ext c.le.tot)
  | .case3 => some (hdr4 ++ lengthField ext c.lc.tot ++ c.dc)
  | .case4 => some (hdr4 ++ lengthField ext c.lc.tot ++ c.dc ++ trailingLe ext c.le.tot)

/-- `dispatch()` (rule R295). -/
def bridgeDispatch (s : State) : Effect :=
  let c := s.bridge.ctx
  if c.lc.cur.toNat < c.lc.tot.toNat then .done (emit (.rxMore (c.lc.tot - c.lc.cur)) s)
  else if s.bridge.forwarded = false then
    match capdu c s.bridge.ext with
    | none => .noRule
    | some x => .done (emit (.txToCard x) { s with bridge := { s.bridge with forwarded := true } })
  else
    match c.sw0, c.sw1 with
    | some s1, some s2 => .done (emit (.complete s1 s2 c.de) s)
    | _, _ => .done (bridgeFatal .noOutcome s)

/-- The context a classified new segment sets up (rule R293). -/
def newCtx (seg : List Byte) (r : CaseInfo) : ApduCtx :=
  let n := min r.avail r.lcTot
  { ApduCtx.cleared with
    hdr := ⟨seg.getD 0 0#8, seg.getD 1 0#8, seg.getD 2 0#8, seg.getD 3 0#8,
      if 5 ≤ seg.length then seg.getD 4 0#8 else 0#8⟩
    apduCase := r.c
    lc := ⟨BitVec.ofNat 32 n, BitVec.ofNat 32 r.lcTot⟩
    le := ⟨0, BitVec.ofNat 32 r.leTot⟩
    dc := (seg.drop r.off).take n }

/-- A new command APDU (rule R293). -/
def segNew (seg : List Byte) (s : State) : Effect :=
  match classifyCase seg with
  | .malformed .tooShort => .done (raise (.transport .tooShort) s)
  | .malformed .lengthMismatch => .done (bridgeFatal .lengthMismatch s)
  | .malformed .zeroLc => .done (bridgeFatal .zeroLc s)
  | .case r =>
    bridgeDispatch { s with bridge := { s.bridge with
      ctx := newCtx seg r, valid := true, forwarded := false, ext := r.ext } }

/-- A continuation segment is owed data (rule R294). -/
def contOwed (b : Bridge) : Bool :=
  b.valid && !b.forwarded && decide (b.ctx.lc.cur.toNat < b.ctx.lc.tot.toNat)

/-- The context after a continuation segment that is owed (rule R294). -/
def contCtx (seg : List Byte) (c : ApduCtx) : ApduCtx :=
  let n := min seg.length (c.lc.tot.toNat - c.lc.cur.toNat)
  { c with
    dc := c.dc ++ seg.take n
    lc := { c.lc with cur := c.lc.cur + BitVec.ofNat 32 n } }

/-- A continuation segment (rule R294). -/
def segCont (seg : List Byte) (s : State) : Effect :=
  if contOwed s.bridge = false then .done (bridgeFatal .noDataOwed s)
  else bridgeDispatch { s with bridge := { s.bridge with ctx := contCtx seg s.bridge.ctx } }

/-- The context after the real card's answer `r` of at least two bytes (rule R297). -/
def respCtx (r : List Byte) (c : ApduCtx) : ApduCtx :=
  let n := min (r.length - 2) c.le.tot.toNat
  { c with
    de := r.take n
    le := { c.le with cur := BitVec.ofNat 32 n }
    sw0 := r[r.length - 2]?
    sw1 := r[r.length - 1]? }

/-- The real card's answer (rule R297). -/
def cardAnswer (r : List Byte) (s : State) : Effect :=
  let b := s.bridge
  if r.length < 2 then .done (raise (.transport .tooShort) s)
  else if (b.valid && b.forwarded) = false ∨ b.ctx.sw0 ≠ none then
    .done (raise (.transport .unexpectedResponse) s)
  else bridgeDispatch { s with bridge := { b with ctx := respCtx r b.ctx } }

/-- A status report to the bridge (rule R298). -/
def statusReport (flags : Flags) (s : State) : State :=
  let t := match resetTrigger s.bridge.prevStatus flags with
    | some k => emit (.cardReset k) s
    | none => s
  { t with bridge := { t.bridge with prevStatus := flags } }

/-- A bridge rule on the slot (rules R299, R336, R339). -/
def bridgeEvent (rule : State → Effect) (s : State) : Answer :=
  whenBridgeLive (fun s => settle s (rule s)) s

end Sys2Proof.Machine
end

