-- ==== Sys2Proof/Machine/ExecFunc.lean ====
section
/-! DEFINITION. The query ports (rule R89): each puts its result on the query-result port and changes
no state of the spec. -/

namespace Sys2Proof.Machine

/-- Answer a query: the result goes on the query-result port (rule R89, log 2). -/
def answerQuery (r : State → QueryResult) (s : State) : Answer :=
  whenLive (fun s => .next { s with queryPort := some (r s) }) s

/-- FUNC.VALID_F (rule R122). -/
def execFuncValidF (f : Half) (s : State) : Answer := answerQuery (fun _ => .bool (validF f)) s

/-- FUNC.VALID_D (rule R123). -/
def execFuncValidD (d : Byte) (s : State) : Answer :=
  answerQuery (fun s => .bool (validD s.params.diTail d)) s

/-- FUNC.FIDI_RATIO (rule R125). -/
def execFuncFidiRatio (fidi : Byte) (s : State) : Answer :=
  answerQuery (fun s => .timing (fidiToRatio s.params.diTail fidi)) s

/-- FUNC.CALC_WT (rule R124). -/
def execFuncCalcWt (wi : Byte) (fi f : Half) (di d : Byte) (s : State) : Answer :=
  answerQuery (fun s => .timing (calcWt s.params.diTail wi fi di f d)) s

/-- FUNC.CLASSIFY_CASE (rule R290). -/
def execFuncClassifyCase (seg : List Byte) (s : State) : Answer :=
  answerQuery (fun _ => .apduCase (classifyCase seg)) s

/-- FUNC.CLASSIFY_PB (rule R256). -/
def execFuncClassifyPb (ins b : Byte) (s : State) : Answer :=
  answerQuery (fun _ => .pbClass (classifyPb ins b)) s

/-- FUNC.ATR_PARSE (rule R154). -/
def execFuncAtrParse (x : List Byte) (s : State) : Answer :=
  answerQuery (fun s => .parse (atrParse s.params x)) s

/-- FUNC.ATR_BUILD (rules R90, R156). -/
def execFuncAtrBuild (x : List Byte) (s : State) : Answer :=
  answerQuery (fun s => .build (atrBuildTagged s.params x)) s

end Sys2Proof.Machine
end

