-- ==== Sys2Proof/Machine/ExecHost.lean ====
section
/-! DEFINITION. The events from the host side: `ATR_SET` (rule R160) and the bridge events (rules R293,
R294, R297, R298). -/

namespace Sys2Proof.Machine

/-- ATR_SET (rule R160): in every phase and both modes. -/
def execAtrSet (x : List Byte) (s : State) : Answer := whenLive (fun s => .next (setAtr x s)) s

/-- APDU_SEG.NEW (rule R293). -/
def execApduSegNew (seg : List Byte) (s : State) : Answer := bridgeEvent (segNew seg) s

/-- APDU_SEG.CONT (rule R294). -/
def execApduSegCont (seg : List Byte) (s : State) : Answer := bridgeEvent (segCont seg) s

/-- CARD_RESP (rule R297). -/
def execCardResp (r : List Byte) (s : State) : Answer := bridgeEvent (cardAnswer r) s

/-- STATUS_IN (rule R298). -/
def execStatusIn (flags : Flags) (s : State) : Answer :=
  bridgeEvent (fun s => .done (statusReport flags s)) s

end Sys2Proof.Machine
end

