-- ==== Sys2Proof/Machine/ExecReserved.lean ====
section
/-! DEFINITION. Reserved event words delivered nevertheless (rule R91): the slot enters the model fault
`IllegalEvent` (rule R336). The reserved bits of the word change nothing. -/

namespace Sys2Proof.Machine

/-- `fault IllegalEvent` (rules R91, R336). -/
def illegalEvent (s : State) : Answer := whenLive (fun s => .next (enterFault .illegalEvent s)) s

/-- RESERVED.FUNC_FN8_15 (rule R91). -/
def execReservedFn (_fn : BitVec 3) (_rest : BitVec 24) (s : State) : Answer := illegalEvent s

/-- RESERVED.KIND_0 (rule R91). -/
def execReservedKind0 (_rest : BitVec 28) (s : State) : Answer := illegalEvent s

/-- RESERVED.KIND_9 (rule R91). -/
def execReservedKind9 (_rest : BitVec 28) (s : State) : Answer := illegalEvent s

/-- RESERVED.KIND_B (rule R91). -/
def execReservedKindB (_rest : BitVec 28) (s : State) : Answer := illegalEvent s

/-- RESERVED.KIND_C (rule R91). -/
def execReservedKindC (_rest : BitVec 28) (s : State) : Answer := illegalEvent s

/-- RESERVED.KIND_D (rule R91). -/
def execReservedKindD (_rest : BitVec 28) (s : State) : Answer := illegalEvent s

/-- RESERVED.KIND_E (rule R91). -/
def execReservedKindE (_rest : BitVec 28) (s : State) : Answer := illegalEvent s

/-- RESERVED.KIND_F (rule R91). -/
def execReservedKindF (_rest : BitVec 28) (s : State) : Answer := illegalEvent s

end Sys2Proof.Machine
end

