-- ==== Sys2Proof/Machine/ExecSignal.lean ====
section
/-! DEFINITION. The `SIGNAL` event, its rows, and `CARD_INSERT` (rules R214 to R219). -/

namespace Sys2Proof.Machine

/-- SIGNAL (rule R214). -/
def execSignal (clk vcc rst : Bool) (s : State) : Answer := signalEvent clk vcc rst s

/-- SIGNAL.RST_ASSERT (rule R215): RST = 1, whatever VCC. -/
def execSignalRstAssert (clk vcc : Bool) (s : State) : Answer :=
  whenLive (fun s => .next (fallToReset (recordLevels true vcc clk s))) s

/-- SIGNAL.RST_RELEASE (rule R216): RST = 0, VCC = 1. -/
def execSignalRstRelease (clk : Bool) (s : State) : Answer :=
  whenLive (fun s =>
    .next (releaseReset (resetActive s.status) (recordLevels false true clk s))) s

/-- SIGNAL.VCC_OFF (rule R217): RST = 0, VCC = 0. -/
def execSignalVccOff (clk : Bool) (s : State) : Answer :=
  whenLive (fun s => .next (fallToReset (recordLevels false false clk s))) s

/-- None of the three tests of rule R214 applies to the levels: what is left is CLK. -/
def onlyClk (vcc rst : Bool) (s : State) : Bool :=
  !rst && vcc && !(resetActive s.status && s.top == .reset)

/-- SIGNAL.CLK (rule R218): the level is recorded and reported, and nothing else happens; where another
test of the event applies, the event. -/
def execSignalClk (clk vcc rst : Bool) (s : State) : Answer :=
  if s.fault = none ∧ onlyClk vcc rst s = true then .next (recordLevels rst vcc clk s)
  else signalEvent clk vcc rst s

/-- CARD_INSERT (rule R219). -/
def execCardInsert (ins : Bool) (s : State) : Answer := cardInsertEvent ins s

end Sys2Proof.Machine
end

