-- ==== Sys2Proof/Machine/ExecTimer.lean ====
section
/-! DEFINITION. The `WT_EXPIRY` event and its phase rows (rules R225 to R230). -/

namespace Sys2Proof.Machine

/-- WT_EXPIRY (rule R225). -/
def execWtExpiry (s : State) : Answer := expiryEvent s

/-- WT_EXPIRY.WAITATR (rule R226). -/
def execWtExpiryWaitAtr (s : State) : Answer := expiryRow .waitAtr expiryWaitAtr s

/-- WT_EXPIRY.INATR (rule R227). -/
def execWtExpiryInAtr (s : State) : Answer := expiryRow .inAtr expiryInAtr s

/-- WT_EXPIRY.WAITAPDU (rule R228). -/
def execWtExpiryWaitApdu (s : State) : Answer := expiryRow .waitApdu expiryWaitApdu s

/-- WT_EXPIRY.INAPDU (rule R229). -/
def execWtExpiryInApdu (s : State) : Answer := expiryRow .inApdu expiryInApdu s

/-- WT_EXPIRY.INPTS (rule R230). -/
def execWtExpiryInPts (s : State) : Answer := expiryRow .inPts expiryInPts s

end Sys2Proof.Machine
end

