-- ==== Sys2Proof/WellFormed.lean ====
section
/-! DEFINITION. Which terms of `Instr` an event word and payload can spell: the operand ranges of the
opcode table's rows and the payload lengths of rules R85 to R90. -/

namespace Sys2Proof

/-- `b` is neither the NULL byte 0x60 nor of the SW1 class (rule R98, orders 1 and 2): its high nibble
is not 6 and not 9. -/
abbrev ackByte (b : Byte) : Prop := b.extractLsb' 4 4 ≠ 6#4 ∧ b.extractLsb' 4 4 ≠ 9#4

/-- The operand check of each row (`True` where the row admits every operand value). -/
abbrev Instr.wf : Instr → Prop
  | .lineBytePe _ _ _ _ => True
  | .lineByteOe _ _ _ _ => True
  | .lineByteFe _ _ _ _ => True
  | .lineByteReset _ _ _ _ _ => True
  | .lineByteWaitAtr _ _ => True
  | .atrTs _ _ => True
  | .atrT0 _ _ => True
  | .atrTa _ _ => True
  | .atrTb _ _ => True
  | .atrTc _ _ => True
  | .atrTd _ _ => True
  | .atrHist _ _ => True
  | .atrTck _ _ => True
  | .lineByteInAtr _ _ => True
  | .ppsPtssReq _ => True
  | .tpduCla _ b => b ≠ 0xFF#8
  | .lineByteWaitApdu _ _ => True
  | .lineByteInPts _ _ => True
  | .ppsPts0 _ _ => True
  | .ppsPts1 _ _ => True
  | .ppsPts2 _ _ => True
  | .ppsPts3 _ _ => True
  | .ppsPckReq _ _ => True
  | .ppsPtssResp _ _ => True
  | .ppsPckResp _ _ => True
  | .lineByteInApdu _ _ => True
  | .tpduIns _ _ => True
  | .tpduP1 _ _ => True
  | .tpduP2 _ _ => True
  | .tpduP3 _ _ => True
  | .tpduPbNull _ => True
  | .tpduPbSw16x _ lo => lo ≠ 0#4
  | .tpduPbSw19x _ _ => True
  | .tpduPbAckAll _ b => ackByte b
  | .tpduPbAckOne _ b => ackByte b
  | .tpduPbOther _ b => ackByte b
  | .tpduData _ _ => True
  | .tpduSw2 _ _ => True
  | .lineByte _ _ _ _ _ => True
  | .wtExpiry => True
  | .signal _ _ _ => True
  | .wtExpiryWaitAtr => True
  | .wtExpiryInAtr => True
  | .wtExpiryWaitApdu => True
  | .wtExpiryInApdu => True
  | .wtExpiryInPts => True
  | .signalRstAssert _ _ => True
  | .signalRstRelease _ => True
  | .signalVccOff _ => True
  | .signalClk _ _ _ => True
  | .cardInsert _ => True
  | .atrSet x => x.length < 256
  | .apduSegNew seg => seg.length < 65536
  | .apduSegCont seg => seg.length < 65536
  | .cardResp r => r.length < 65536
  | .statusIn _ => True
  | .funcValidF _ => True
  | .funcValidD _ => True
  | .funcFidiRatio _ => True
  | .funcCalcWt _ _ _ _ _ => True
  | .funcClassifyCase seg => seg.length < 65536
  | .funcClassifyPb _ _ => True
  | .funcAtrParse x => x.length < 256
  | .funcAtrBuild x => x.length < 256
  | .reservedFn _ _ => True
  | .reservedKind0 _ => True
  | .reservedKind9 _ => True
  | .reservedKindB _ => True
  | .reservedKindC _ => True
  | .reservedKindD _ => True
  | .reservedKindE _ => True
  | .reservedKindF _ => True

end Sys2Proof
end

