-- ==== Sys2Proof/Decode.lean ====
section
/-! DEFINITION. The decoder of event words (rules R80 to R92) and the encoder. A word alone spells an
EVENT; which phase row of the opcode table it is, the state decides (Machine/Rows.lean, log 7). -/

namespace Sys2Proof

/-- Why a delivered word and payload spell no event (rule R91). -/
inductive DecodeError where
  /-- a reserved bit of the word is not 0 -/
  | reservedBits
  /-- the payload is shorter than the word says -/
  | payloadShort
  /-- the payload is longer than the word says (rule R92) -/
  | payloadLong
  deriving DecidableEq, Repr

/-- The payload length an event word states (rule R92): N or WLEN, 6 for `CALC_WT`, else 0. -/
def payloadLen (w : Word) : Nat :=
  match (w.extractLsb' 28 4).toNat with
  | 5 => (w.extractLsb' 0 8).toNat
  | 6 => (w.extractLsb' 0 16).toNat
  | 7 => (w.extractLsb' 0 16).toNat
  | 10 =>
    match (w.extractLsb' 24 4).toNat with
    | 3 => 6
    | 4 => (w.extractLsb' 0 16).toNat
    | 6 => (w.extractLsb' 0 8).toNat
    | 7 => (w.extractLsb' 0 8).toNat
    | _ => 0
  | _ => 0

/-- Accept `i` if the payload has the length the word states (rules R91, R92). -/
def withPayload (ev : RawEvent) (i : Instr) : Except DecodeError Instr :=
  if ev.payload.length < payloadLen ev.word then .error .payloadShort
  else if payloadLen ev.word < ev.payload.length then .error .payloadLong
  else .ok i

/-- Accept `i` if the reserved bits of the word are all 0 (rules R80, R91) and the payload fits. -/
def ifZero (reserved : Bool) (ev : RawEvent) (i : Instr) : Except DecodeError Instr :=
  if reserved then withPayload ev i else .error .reservedBits

/-- The k-th payload byte. -/
def payloadByte (ev : RawEvent) (k : Nat) : Byte := ev.payload.getD k 0#8

/-- Two bytes as one 16-bit value, the first the more significant (rule R90). -/
def bigEndian (hi lo : Byte) : Half := BitVec.ofNat 16 (hi.toNat * 256 + lo.toNat)

/-- The byte with the given high and low nibble (rule R10). -/
def joinNibbles (hi lo : Nibble) : Byte := BitVec.ofNat 8 (hi.toNat * 16 + lo.toNat)

/-- KIND 0xA: the query ports, selected by FN (rules R89, R90). -/
def decodeFunc (ev : RawEvent) : Except DecodeError Instr :=
  let w := ev.word
  match (w.extractLsb' 24 4).toNat with
  | 0 => ifZero (w.extractLsb' 16 8 == 0#8) ev (.funcValidF (w.extractLsb' 0 16))
  | 1 => ifZero (w.extractLsb' 8 16 == 0#16) ev (.funcValidD (w.extractLsb' 0 8))
  | 2 => ifZero (w.extractLsb' 8 16 == 0#16) ev (.funcFidiRatio (w.extractLsb' 0 8))
  | 3 => ifZero (w.extractLsb' 8 16 == 0#16) ev
      (.funcCalcWt (w.extractLsb' 0 8) (bigEndian (payloadByte ev 0) (payloadByte ev 1))
        (bigEndian (payloadByte ev 2) (payloadByte ev 3)) (payloadByte ev 4) (payloadByte ev 5))
  | 4 => ifZero (w.extractLsb' 16 8 == 0#8) ev (.funcClassifyCase ev.payload)
  | 5 => ifZero (w.extractLsb' 16 8 == 0#8) ev
      (.funcClassifyPb (w.extractLsb' 8 8) (w.extractLsb' 0 8))
  | 6 => ifZero (w.extractLsb' 8 16 == 0#16) ev (.funcAtrParse ev.payload)
  | 7 => ifZero (w.extractLsb' 8 16 == 0#16) ev (.funcAtrBuild ev.payload)
  | _ => withPayload ev (.reservedFn (w.extractLsb' 24 3) (w.extractLsb' 0 24))

/-- The event a delivered word and payload spell (rule R80). Total: a word with a reserved bit set and
a payload of the wrong length are rejected by name; a word of a reserved KIND or FN is its
`RESERVED` row (DEDUCED, log 8). Rules R91 and R92 do not order the two rejections: a reserved bit goes
before the payload's length, and the length before a reserved KIND or FN (DESIGN CHOICE, log 8). -/
def decode (ev : RawEvent) : Except DecodeError Instr :=
  let w := ev.word
  match (w.extractLsb' 28 4).toNat with
  | 0 => withPayload ev (.reservedKind0 (w.extractLsb' 0 28))
  | 1 => ifZero (w.extractLsb' 11 16 == 0#16) ev
      (.lineByte (w.getLsbD 27) (w.getLsbD 10) (w.getLsbD 9) (w.getLsbD 8) (w.extractLsb' 0 8))
  | 2 => ifZero (w.extractLsb' 0 28 == 0#28) ev .wtExpiry
  | 3 => ifZero (w.extractLsb' 3 25 == 0#25) ev
      (.signal (w.getLsbD 2) (w.getLsbD 1) (w.getLsbD 0))
  | 4 => ifZero (w.extractLsb' 1 27 == 0#27) ev (.cardInsert (w.getLsbD 0))
  | 5 => ifZero (w.extractLsb' 8 20 == 0#20) ev (.atrSet ev.payload)
  | 6 => ifZero (w.extractLsb' 17 11 == 0#11) ev
      (if w.getLsbD 16 then .apduSegNew ev.payload else .apduSegCont ev.payload)
  | 7 => ifZero (w.extractLsb' 16 12 == 0#12) ev (.cardResp ev.payload)
  | 8 => ifZero (w.extractLsb' 5 23 == 0#23) ev (.statusIn (w.extractLsb' 0 5))
  | 9 => withPayload ev (.reservedKind9 (w.extractLsb' 0 28))
  | 10 => decodeFunc ev
  | 11 => withPayload ev (.reservedKindB (w.extractLsb' 0 28))
  | 12 => withPayload ev (.reservedKindC (w.extractLsb' 0 28))
  | 13 => withPayload ev (.reservedKindD (w.extractLsb' 0 28))
  | 14 => withPayload ev (.reservedKindE (w.extractLsb' 0 28))
  | _ => withPayload ev (.reservedKindF (w.extractLsb' 0 28))

/-- The event word of KIND `kind` whose bits 27..0 are `rest` (rule R80). -/
def eventWord (kind rest : Nat) : Word := BitVec.ofNat 32 (kind * 2 ^ 28 + rest)

/-- A `LINE_BYTE` event: DIR in bit 27, PE, OE, FE in bits 10, 9, 8, BYTE in bits 7..0 (rules R80,
R81). -/
def lineByteWord (dir pe oe fe : Bool) (b : Byte) : RawEvent :=
  ⟨eventWord 0x1 (dir.toNat * 2 ^ 27 + pe.toNat * 2 ^ 10 + oe.toNat * 2 ^ 9 + fe.toNat * 2 ^ 8
    + b.toNat), []⟩

/-- The `WT_EXPIRY` event (rule R82). -/
def wtExpiryWord : RawEvent := ⟨eventWord 0x2 0, []⟩

/-- A `SIGNAL` event: CLK in bit 2, VCC in bit 1, RST in bit 0 (rule R83). -/
def signalWord (clk vcc rst : Bool) : RawEvent :=
  ⟨eventWord 0x3 (clk.toNat * 2 ^ 2 + vcc.toNat * 2 ^ 1 + rst.toNat), []⟩

/-- An event of KIND `kind` whose word holds `head` above and the payload's length in its low bits
(rules R85 to R87, R89). -/
def countedWord (kind head : Nat) (x : List Byte) : RawEvent :=
  ⟨eventWord kind (head + x.length), x⟩

/-- A `FUNC` event without payload: FN in bits 27..24 (rule R89). -/
def funcWord (fn rest : Nat) : RawEvent := ⟨eventWord 0xA (fn * 2 ^ 24 + rest), []⟩

/-- The event word and payload of each row, written from rules R80 to R90. -/
def encode : Instr → RawEvent
  | .lineBytePe dir oe fe b => lineByteWord dir true oe fe b
  | .lineByteOe dir pe fe b => lineByteWord dir pe true fe b
  | .lineByteFe dir pe oe b => lineByteWord dir pe oe true b
  | .lineByteReset dir pe oe fe b => lineByteWord dir pe oe fe b
  | .lineByteWaitAtr dir b => lineByteWord dir false false false b
  | .atrTs dir b => lineByteWord dir false false false b
  | .atrT0 dir b => lineByteWord dir false false false b
  | .atrTa dir b => lineByteWord dir false false false b
  | .atrTb dir b => lineByteWord dir false false false b
  | .atrTc dir b => lineByteWord dir false false false b
  | .atrTd dir b => lineByteWord dir false false false b
  | .atrHist dir b => lineByteWord dir false false false b
  | .atrTck dir b => lineByteWord dir false false false b
  | .lineByteInAtr dir b => lineByteWord dir false false false b
  | .ppsPtssReq dir => lineByteWord dir false false false 0xFF#8
  | .tpduCla dir b => lineByteWord dir false false false b
  | .lineByteWaitApdu dir b => lineByteWord dir false false false b
  | .lineByteInPts dir b => lineByteWord dir false false false b
  | .ppsPts0 dir b => lineByteWord dir false false false b
  | .ppsPts1 dir b => lineByteWord dir false false false b
  | .ppsPts2 dir b => lineByteWord dir false false false b
  | .ppsPts3 dir b => lineByteWord dir false false false b
  | .ppsPckReq dir b => lineByteWord dir false false false b
  | .ppsPtssResp dir b => lineByteWord dir false false false b
  | .ppsPckResp dir b => lineByteWord dir false false false b
  | .lineByteInApdu dir b => lineByteWord dir false false false b
  | .tpduIns dir b => lineByteWord dir false false false b
  | .tpduP1 dir b => lineByteWord dir false false false b
  | .tpduP2 dir b => lineByteWord dir false false false b
  | .tpduP3 dir b => lineByteWord dir false false false b
  | .tpduPbNull dir => lineByteWord dir false false false 0x60#8
  | .tpduPbSw16x dir lo => lineByteWord dir false false false (joinNibbles 6#4 lo)
  | .tpduPbSw19x dir lo => lineByteWord dir false false false (joinNibbles 9#4 lo)
  | .tpduPbAckAll dir b => lineByteWord dir false false false b
  | .tpduPbAckOne dir b => lineByteWord dir false false false b
  | .tpduPbOther dir b => lineByteWord dir false false false b
  | .tpduData dir b => lineByteWord dir false false false b
  | .tpduSw2 dir b => lineByteWord dir false false false b
  | .lineByte dir pe oe fe b => lineByteWord dir pe oe fe b
  | .wtExpiry => wtExpiryWord
  | .signal clk vcc rst => signalWord clk vcc rst
  | .wtExpiryWaitAtr => wtExpiryWord
  | .wtExpiryInAtr => wtExpiryWord
  | .wtExpiryWaitApdu => wtExpiryWord
  | .wtExpiryInApdu => wtExpiryWord
  | .wtExpiryInPts => wtExpiryWord
  | .signalRstAssert clk vcc => signalWord clk vcc true
  | .signalRstRelease clk => signalWord clk true false
  | .signalVccOff clk => signalWord clk false false
  | .signalClk clk vcc rst => signalWord clk vcc rst
  | .cardInsert ins => ⟨eventWord 0x4 ins.toNat, []⟩
  | .atrSet x => countedWord 0x5 0 x
  | .apduSegNew seg => countedWord 0x6 (2 ^ 16) seg
  | .apduSegCont seg => countedWord 0x6 0 seg
  | .cardResp r => countedWord 0x7 0 r
  | .statusIn flags => ⟨eventWord 0x8 flags.toNat, []⟩
  | .funcValidF f => funcWord 0 f.toNat
  | .funcValidD d => funcWord 1 d.toNat
  | .funcFidiRatio fidi => funcWord 2 fidi.toNat
  | .funcCalcWt wi fi f di d =>
    ⟨eventWord 0xA (3 * 2 ^ 24 + wi.toNat), [fi.extractLsb' 8 8, fi.extractLsb' 0 8,
      f.extractLsb' 8 8, f.extractLsb' 0 8, di, d]⟩
  | .funcClassifyCase seg => countedWord 0xA (4 * 2 ^ 24) seg
  | .funcClassifyPb ins b => funcWord 5 (ins.toNat * 2 ^ 8 + b.toNat)
  | .funcAtrParse x => countedWord 0xA (6 * 2 ^ 24) x
  | .funcAtrBuild x => countedWord 0xA (7 * 2 ^ 24) x
  | .reservedFn fn rest => funcWord (8 + fn.toNat) rest.toNat
  | .reservedKind0 rest => ⟨eventWord 0x0 rest.toNat, []⟩
  | .reservedKind9 rest => ⟨eventWord 0x9 rest.toNat, []⟩
  | .reservedKindB rest => ⟨eventWord 0xB rest.toNat, []⟩
  | .reservedKindC rest => ⟨eventWord 0xC rest.toNat, []⟩
  | .reservedKindD rest => ⟨eventWord 0xD rest.toNat, []⟩
  | .reservedKindE rest => ⟨eventWord 0xE rest.toNat, []⟩
  | .reservedKindF rest => ⟨eventWord 0xF rest.toNat, []⟩

/-- The event row of a row: a phase row without its phase condition (rule R100); an event row is its
own. -/
def Instr.event : Instr → Instr
  | .lineBytePe dir oe fe b => .lineByte dir true oe fe b
  | .lineByteOe dir pe fe b => .lineByte dir pe true fe b
  | .lineByteFe dir pe oe b => .lineByte dir pe oe true b
  | .lineByteReset dir pe oe fe b => .lineByte dir pe oe fe b
  | .lineByteWaitAtr dir b => .lineByte dir false false false b
  | .atrTs dir b => .lineByte dir false false false b
  | .atrT0 dir b => .lineByte dir false false false b
  | .atrTa dir b => .lineByte dir false false false b
  | .atrTb dir b => .lineByte dir false false false b
  | .atrTc dir b => .lineByte dir false false false b
  | .atrTd dir b => .lineByte dir false false false b
  | .atrHist dir b => .lineByte dir false false false b
  | .atrTck dir b => .lineByte dir false false false b
  | .lineByteInAtr dir b => .lineByte dir false false false b
  | .ppsPtssReq dir => .lineByte dir false false false 0xFF#8
  | .tpduCla dir b => .lineByte dir false false false b
  | .lineByteWaitApdu dir b => .lineByte dir false false false b
  | .lineByteInPts dir b => .lineByte dir false false false b
  | .ppsPts0 dir b => .lineByte dir false false false b
  | .ppsPts1 dir b => .lineByte dir false false false b
  | .ppsPts2 dir b => .lineByte dir false false false b
  | .ppsPts3 dir b => .lineByte dir false false false b
  | .ppsPckReq dir b => .lineByte dir false false false b
  | .ppsPtssResp dir b => .lineByte dir false false false b
  | .ppsPckResp dir b => .lineByte dir false false false b
  | .lineByteInApdu dir b => .lineByte dir false false false b
  | .tpduIns dir b => .lineByte dir false false false b
  | .tpduP1 dir b => .lineByte dir false false false b
  | .tpduP2 dir b => .lineByte dir false false false b
  | .tpduP3 dir b => .lineByte dir false false false b
  | .tpduPbNull dir => .lineByte dir false false false 0x60#8
  | .tpduPbSw16x dir lo => .lineByte dir false false false (joinNibbles 6#4 lo)
  | .tpduPbSw19x dir lo => .lineByte dir false false false (joinNibbles 9#4 lo)
  | .tpduPbAckAll dir b => .lineByte dir false false false b
  | .tpduPbAckOne dir b => .lineByte dir false false false b
  | .tpduPbOther dir b => .lineByte dir false false false b
  | .tpduData dir b => .lineByte dir false false false b
  | .tpduSw2 dir b => .lineByte dir false false false b
  | .lineByte dir pe oe fe b => .lineByte dir pe oe fe b
  | .wtExpiry => .wtExpiry
  | .signal clk vcc rst => .signal clk vcc rst
  | .wtExpiryWaitAtr => .wtExpiry
  | .wtExpiryInAtr => .wtExpiry
  | .wtExpiryWaitApdu => .wtExpiry
  | .wtExpiryInApdu => .wtExpiry
  | .wtExpiryInPts => .wtExpiry
  | .signalRstAssert clk vcc => .signal clk vcc true
  | .signalRstRelease clk => .signal clk true false
  | .signalVccOff clk => .signal clk false false
  | .signalClk clk vcc rst => .signal clk vcc rst
  | .cardInsert ins => .cardInsert ins
  | .atrSet x => .atrSet x
  | .apduSegNew seg => .apduSegNew seg
  | .apduSegCont seg => .apduSegCont seg
  | .cardResp r => .cardResp r
  | .statusIn flags => .statusIn flags
  | .funcValidF f => .funcValidF f
  | .funcValidD d => .funcValidD d
  | .funcFidiRatio fidi => .funcFidiRatio fidi
  | .funcCalcWt wi fi f di d => .funcCalcWt wi fi f di d
  | .funcClassifyCase seg => .funcClassifyCase seg
  | .funcClassifyPb ins b => .funcClassifyPb ins b
  | .funcAtrParse x => .funcAtrParse x
  | .funcAtrBuild x => .funcAtrBuild x
  | .reservedFn fn rest => .reservedFn fn rest
  | .reservedKind0 rest => .reservedKind0 rest
  | .reservedKind9 rest => .reservedKind9 rest
  | .reservedKindB rest => .reservedKindB rest
  | .reservedKindC rest => .reservedKindC rest
  | .reservedKindD rest => .reservedKindD rest
  | .reservedKindE rest => .reservedKindE rest
  | .reservedKindF rest => .reservedKindF rest

/-- The low `n` bytes of `v`, least significant first. -/
def bytesOf : Nat → Nat → List Byte
  | 0, _ => []
  | n + 1, v => BitVec.ofNat 8 v :: bytesOf n (v / 256)

/-- The event whose bits are the low `nbits` bits of `w`, bit 0 the least significant bit of the event
word and the payload bytes following it in order, every bit above `nbits` 0, up to the length the
word states (rule R92). -/
def tableEvent (nbits w : Nat) : RawEvent :=
  let v := w % 2 ^ nbits
  let word : Word := BitVec.ofNat 32 v
  ⟨word, bytesOf (payloadLen word) (v / 2 ^ 32)⟩

/-- The instruction the decoder reads from the bits `w`, numbered as spec/opcode_table.json does. -/
def decodeTableWord (nbits w : Nat) : Option Instr :=
  match decode (tableEvent nbits w) with
  | .ok i => some i
  | .error _ => none

end Sys2Proof
end

