-- ==== Sys2Proof/Machine/ExecLine.lean ====
section
/-! DEFINITION. The `LINE_BYTE` event and its phase rows of 43_phase_classifier.md. A phase row whose
condition does not hold is the event itself (log 7). -/

namespace Sys2Proof.Machine

/-- `TOP` is `t`. -/
def atTop (t : Top) (s : State) : Bool := s.top == t

/-- LINE_BYTE (rule R210). -/
def execLineByte (dir pe oe fe : Bool) (b : Byte) (s : State) : Answer :=
  lineEvent dir pe oe fe b s

/-- A line byte with an error bit set: the framing error while `TOP` is not `Reset` (rule R211), the
event elsewhere. -/
def framingRow (dir pe oe fe : Bool) (b : Byte) (s : State) : Answer :=
  if s.fault = none ∧ s.top ≠ .reset then .next (framingError b pe oe fe s)
  else lineEvent dir pe oe fe b s

/-- LINE_BYTE.PE (rule R211). -/
def execLineBytePe (dir oe fe : Bool) (b : Byte) (s : State) : Answer :=
  framingRow dir true oe fe b s

/-- LINE_BYTE.OE (rule R211). -/
def execLineByteOe (dir pe fe : Bool) (b : Byte) (s : State) : Answer :=
  framingRow dir pe true fe b s

/-- LINE_BYTE.FE (rule R211). -/
def execLineByteFe (dir pe oe : Bool) (b : Byte) (s : State) : Answer :=
  framingRow dir pe oe true b s

/-- LINE_BYTE.RESET (rule R236): in `Reset` the byte is ignored, error bits or not. -/
def execLineByteReset (dir pe oe fe : Bool) (b : Byte) (s : State) : Answer :=
  if atTop .reset s then .next s else lineEvent dir pe oe fe b s

/-- LINE_BYTE.WAITATR (rule R221). -/
def execLineByteWaitAtr (dir : Bool) (b : Byte) (s : State) : Answer :=
  lineRow (atTop .waitAtr) (ruleWaitAtr b) dir b s

/-- LINE_BYTE.INATR (rule R222). -/
def execLineByteInAtr (dir : Bool) (b : Byte) (s : State) : Answer :=
  lineRow (atTop .inAtr) (ruleInAtr b) dir b s

/-- LINE_BYTE.WAITAPDU (rule R223). -/
def execLineByteWaitApdu (dir : Bool) (b : Byte) (s : State) : Answer :=
  lineRow (atTop .waitApdu) (ruleWaitApdu b) dir b s

/-- LINE_BYTE.INAPDU (rule R220). -/
def execLineByteInApdu (dir : Bool) (b : Byte) (s : State) : Answer :=
  lineRow (atTop .inApdu) (ruleInApdu b) dir b s

/-- LINE_BYTE.INPTS (rule R224). -/
def execLineByteInPts (dir : Bool) (b : Byte) (s : State) : Answer :=
  lineRow (atTop .inPts) (ruleInPts b) dir b s

end Sys2Proof.Machine
end

