-- ==== Sys2Proof/Machine/ExecAtr.lean ====
section
/-! DEFINITION. The ATR byte rows (rules R143 to R150): line bytes selected by `ATR_STATE` while the
phase is `InAtr`, and TS also in `WaitAtr`. -/

namespace Sys2Proof.Machine

/-- `TOP` is `InAtr` and `ATR_STATE` is `st`. -/
def atAtr (st : AtrState) (s : State) : Bool := s.top == .inAtr && s.atr.st == st

/-- The condition of ATR.TS (rule R143): `TOP` in `WaitAtr`, `InAtr` and `ATR_STATE` = `WaitTS`. -/
def atTs (s : State) : Bool := (s.top == .waitAtr || s.top == .inAtr) && s.atr.st == .waitTS

/-- ATR.TS (rules R143, R221). -/
def execAtrTs (dir : Bool) (b : Byte) (s : State) : Answer :=
  lineRow atTs (ruleWaitAtr b) dir b s

/-- ATR.T0 (rule R144). -/
def execAtrT0 (dir : Bool) (b : Byte) (s : State) : Answer :=
  lineRow (atAtr .waitT0) (ruleT0 b) dir b s

/-- ATR.TA (rule R145). -/
def execAtrTa (dir : Bool) (b : Byte) (s : State) : Answer :=
  lineRow (atAtr .waitTA) (ruleTa b) dir b s

/-- ATR.TB (rule R146). -/
def execAtrTb (dir : Bool) (b : Byte) (s : State) : Answer :=
  lineRow (atAtr .waitTB) (ruleTb b) dir b s

/-- ATR.TC (rule R147). -/
def execAtrTc (dir : Bool) (b : Byte) (s : State) : Answer :=
  lineRow (atAtr .waitTC) (ruleTc b) dir b s

/-- ATR.TD (rule R148). -/
def execAtrTd (dir : Bool) (b : Byte) (s : State) : Answer :=
  lineRow (atAtr .waitTD) (ruleTd b) dir b s

/-- ATR.HIST (rule R149). -/
def execAtrHist (dir : Bool) (b : Byte) (s : State) : Answer :=
  lineRow (atAtr .waitHist) (ruleHist b) dir b s

/-- ATR.TCK (rule R150). -/
def execAtrTck (dir : Bool) (b : Byte) (s : State) : Answer :=
  lineRow (atAtr .waitTCK) (ruleTck b) dir b s

end Sys2Proof.Machine
end

