-- ==== Sys2Proof/Machine/ExecPps.lean ====
section
/-! DEFINITION. The PPS byte rows (rules R182 to R190): line bytes selected by `PPS_PHASE` and
`PPS_POS` while the phase is `InPts`, and the request's PTSS in `WaitApdu`. -/

namespace Sys2Proof.Machine

/-- `TOP` is `InPts` and `PPS_POS` is `p`, in either half. -/
def atPps (p : PpsPos) (s : State) : Bool := s.top == .inPts && s.pps.pos == p

/-- `TOP` is `InPts`, `PPS_PHASE` is `h` and `PPS_POS` is `p`. -/
def atPpsHalf (h : PpsPhase) (p : PpsPos) (s : State) : Bool := atPps p s && s.pps.phase == h

/-- PPS.PTSS_REQ (rule R182). -/
def execPpsPtssReq (dir : Bool) (s : State) : Answer :=
  lineRow (atTop .waitApdu) (fun s => .done (rulePtssReq s)) dir 0xFF#8 s

/-- PPS.PTS0 (rule R183). -/
def execPpsPts0 (dir : Bool) (b : Byte) (s : State) : Answer :=
  lineRow (atPps .pts0) (rulePts0 b) dir b s

/-- PPS.PTS1 (rule R184). -/
def execPpsPts1 (dir : Bool) (b : Byte) (s : State) : Answer :=
  lineRow (atPps .pts1) (rulePts1 b) dir b s

/-- PPS.PTS2 (rule R185). -/
def execPpsPts2 (dir : Bool) (b : Byte) (s : State) : Answer :=
  lineRow (atPps .pts2) (rulePts2 b) dir b s

/-- PPS.PTS3 (rule R186). -/
def execPpsPts3 (dir : Bool) (b : Byte) (s : State) : Answer :=
  lineRow (atPps .pts3) (rulePts3 b) dir b s

/-- PPS.PCK_REQ (rule R187). -/
def execPpsPckReq (dir : Bool) (b : Byte) (s : State) : Answer :=
  lineRow (atPpsHalf .req .pck) (rulePckReq b) dir b s

/-- PPS.PTSS_RESP (rule R190). -/
def execPpsPtssResp (dir : Bool) (b : Byte) (s : State) : Answer :=
  lineRow (atPpsHalf .resp .ptss) (rulePtssResp b) dir b s

/-- PPS.PCK_RESP (rule R188). -/
def execPpsPckResp (dir : Bool) (b : Byte) (s : State) : Answer :=
  lineRow (atPpsHalf .resp .pck) (rulePckResp b) dir b s

end Sys2Proof.Machine
end

