-- ==== Sys2Proof/Machine/ExecTpdu.lean ====
section
/-! DEFINITION. The TPDU byte rows (rules R251 to R263): line bytes selected by `TPDU_STATE`, and in
`Proc` by the procedure class (rule R256), while the phase is `InApdu`, and CLA in `WaitApdu`. -/

namespace Sys2Proof.Machine

/-- `TOP` is `InApdu` and `TPDU_STATE` is `st`. -/
def atTpdu (st : TpduState) (s : State) : Bool := s.top == .inApdu && s.tpdu.st == st

/-- `TOP` is `InApdu`, `TPDU_STATE` is `Proc` and `b` is of class `c` against the header's INS. -/
def atProc (c : PbClass) (b : Byte) (s : State) : Bool :=
  atTpdu .proc s && classifyPb s.tpdu.ctx.hdr.ins b == c

/-- TPDU.CLA (rules R223, R251). -/
def execTpduCla (dir : Bool) (b : Byte) (s : State) : Answer :=
  lineRow (fun s => atTop .waitApdu s && b != 0xFF#8) (ruleFirstTpdu b) dir b s

/-- TPDU.INS (rule R252). -/
def execTpduIns (dir : Bool) (b : Byte) (s : State) : Answer :=
  lineRow (atTpdu .hdrIns) (ruleAppended (ruleIns b) b) dir b s

/-- TPDU.P1 (rule R253). -/
def execTpduP1 (dir : Bool) (b : Byte) (s : State) : Answer :=
  lineRow (atTpdu .hdrP1) (ruleAppended (ruleP1 b) b) dir b s

/-- TPDU.P2 (rule R254). -/
def execTpduP2 (dir : Bool) (b : Byte) (s : State) : Answer :=
  lineRow (atTpdu .hdrP2) (ruleAppended (ruleP2 b) b) dir b s

/-- TPDU.P3 (rule R255). -/
def execTpduP3 (dir : Bool) (b : Byte) (s : State) : Answer :=
  lineRow (atTpdu .hdrP3) (ruleAppended (ruleP3 b) b) dir b s

/-- TPDU.PB_NULL (rule R257): BYTE is 0x60. -/
def execTpduPbNull (dir : Bool) (s : State) : Answer :=
  lineRow (atProc .null 0x60#8) (ruleAppended rulePbNull 0x60#8) dir 0x60#8 s

/-- TPDU.PB_SW1_6X (rule R258): BYTE is 0x6`lo`, `lo` not 0. -/
def execTpduPbSw16x (dir : Bool) (lo : Nibble) (s : State) : Answer :=
  let b := joinNibbles 6#4 lo
  lineRow (atProc .sw1 b) (ruleAppended (rulePbSw1 b) b) dir b s

/-- TPDU.PB_SW1_9X (rule R258): BYTE is 0x9`lo`. -/
def execTpduPbSw19x (dir : Bool) (lo : Nibble) (s : State) : Answer :=
  let b := joinNibbles 9#4 lo
  lineRow (atProc .sw1 b) (ruleAppended (rulePbSw1 b) b) dir b s

/-- TPDU.PB_ACK_ALL (rule R259). -/
def execTpduPbAckAll (dir : Bool) (b : Byte) (s : State) : Answer :=
  lineRow (atProc .ackAll b) (ruleAppended rulePbAckAll b) dir b s

/-- TPDU.PB_ACK_ONE (rule R260). -/
def execTpduPbAckOne (dir : Bool) (b : Byte) (s : State) : Answer :=
  lineRow (atProc .ackOne b) (ruleAppended rulePbAckOne b) dir b s

/-- TPDU.PB_OTHER (rule R261). -/
def execTpduPbOther (dir : Bool) (b : Byte) (s : State) : Answer :=
  lineRow (atProc .other b) (ruleAppended (rulePbOther b) b) dir b s

/-- TPDU.DATA (rule R262). -/
def execTpduData (dir : Bool) (b : Byte) (s : State) : Answer :=
  lineRow (atTpdu .data) (ruleAppended (ruleData b) b) dir b s

/-- TPDU.SW2 (rule R263). -/
def execTpduSw2 (dir : Bool) (b : Byte) (s : State) : Answer :=
  lineRow (atTpdu .sw2) (ruleAppended (ruleSw2 b) b) dir b s

end Sys2Proof.Machine
end

