-- ==== Sys2Proof/Machine/Dispatch.lean ====
section
/-! DEFINITION. The meaning of each row of the opcode table: one arm, one call. -/

namespace Sys2Proof.Machine

def exec (i : Instr) (s : State) : Host.Outcome State Fault Refusal :=
  match i with
  | .lineBytePe dir oe fe b => Sys2Proof.Machine.execLineBytePe dir oe fe b s
  | .lineByteOe dir pe fe b => Sys2Proof.Machine.execLineByteOe dir pe fe b s
  | .lineByteFe dir pe oe b => Sys2Proof.Machine.execLineByteFe dir pe oe b s
  | .lineByteReset dir pe oe fe b => Sys2Proof.Machine.execLineByteReset dir pe oe fe b s
  | .lineByteWaitAtr dir b => Sys2Proof.Machine.execLineByteWaitAtr dir b s
  | .atrTs dir b => Sys2Proof.Machine.execAtrTs dir b s
  | .atrT0 dir b => Sys2Proof.Machine.execAtrT0 dir b s
  | .atrTa dir b => Sys2Proof.Machine.execAtrTa dir b s
  | .atrTb dir b => Sys2Proof.Machine.execAtrTb dir b s
  | .atrTc dir b => Sys2Proof.Machine.execAtrTc dir b s
  | .atrTd dir b => Sys2Proof.Machine.execAtrTd dir b s
  | .atrHist dir b => Sys2Proof.Machine.execAtrHist dir b s
  | .atrTck dir b => Sys2Proof.Machine.execAtrTck dir b s
  | .lineByteInAtr dir b => Sys2Proof.Machine.execLineByteInAtr dir b s
  | .ppsPtssReq dir => Sys2Proof.Machine.execPpsPtssReq dir s
  | .tpduCla dir b => Sys2Proof.Machine.execTpduCla dir b s
  | .lineByteWaitApdu dir b => Sys2Proof.Machine.execLineByteWaitApdu dir b s
  | .lineByteInPts dir b => Sys2Proof.Machine.execLineByteInPts dir b s
  | .ppsPts0 dir b => Sys2Proof.Machine.execPpsPts0 dir b s
  | .ppsPts1 dir b => Sys2Proof.Machine.execPpsPts1 dir b s
  | .ppsPts2 dir b => Sys2Proof.Machine.execPpsPts2 dir b s
  | .ppsPts3 dir b => Sys2Proof.Machine.execPpsPts3 dir b s
  | .ppsPckReq dir b => Sys2Proof.Machine.execPpsPckReq dir b s
  | .ppsPtssResp dir b => Sys2Proof.Machine.execPpsPtssResp dir b s
  | .ppsPckResp dir b => Sys2Proof.Machine.execPpsPckResp dir b s
  | .lineByteInApdu dir b => Sys2Proof.Machine.execLineByteInApdu dir b s
  | .tpduIns dir b => Sys2Proof.Machine.execTpduIns dir b s
  | .tpduP1 dir b => Sys2Proof.Machine.execTpduP1 dir b s
  | .tpduP2 dir b => Sys2Proof.Machine.execTpduP2 dir b s
  | .tpduP3 dir b => Sys2Proof.Machine.execTpduP3 dir b s
  | .tpduPbNull dir => Sys2Proof.Machine.execTpduPbNull dir s
  | .tpduPbSw16x dir lo => Sys2Proof.Machine.execTpduPbSw16x dir lo s
  | .tpduPbSw19x dir lo => Sys2Proof.Machine.execTpduPbSw19x dir lo s
  | .tpduPbAckAll dir b => Sys2Proof.Machine.execTpduPbAckAll dir b s
  | .tpduPbAckOne dir b => Sys2Proof.Machine.execTpduPbAckOne dir b s
  | .tpduPbOther dir b => Sys2Proof.Machine.execTpduPbOther dir b s
  | .tpduData dir b => Sys2Proof.Machine.execTpduData dir b s
  | .tpduSw2 dir b => Sys2Proof.Machine.execTpduSw2 dir b s
  | .lineByte dir pe oe fe b => Sys2Proof.Machine.execLineByte dir pe oe fe b s
  | .wtExpiry => Sys2Proof.Machine.execWtExpiry s
  | .signal clk vcc rst => Sys2Proof.Machine.execSignal clk vcc rst s
  | .wtExpiryWaitAtr => Sys2Proof.Machine.execWtExpiryWaitAtr s
  | .wtExpiryInAtr => Sys2Proof.Machine.execWtExpiryInAtr s
  | .wtExpiryWaitApdu => Sys2Proof.Machine.execWtExpiryWaitApdu s
  | .wtExpiryInApdu => Sys2Proof.Machine.execWtExpiryInApdu s
  | .wtExpiryInPts => Sys2Proof.Machine.execWtExpiryInPts s
  | .signalRstAssert clk vcc => Sys2Proof.Machine.execSignalRstAssert clk vcc s
  | .signalRstRelease clk => Sys2Proof.Machine.execSignalRstRelease clk s
  | .signalVccOff clk => Sys2Proof.Machine.execSignalVccOff clk s
  | .signalClk clk vcc rst => Sys2Proof.Machine.execSignalClk clk vcc rst s
  | .cardInsert ins => Sys2Proof.Machine.execCardInsert ins s
  | .atrSet x => Sys2Proof.Machine.execAtrSet x s
  | .apduSegNew seg => Sys2Proof.Machine.execApduSegNew seg s
  | .apduSegCont seg => Sys2Proof.Machine.execApduSegCont seg s
  | .cardResp r => Sys2Proof.Machine.execCardResp r s
  | .statusIn flags => Sys2Proof.Machine.execStatusIn flags s
  | .funcValidF f => Sys2Proof.Machine.execFuncValidF f s
  | .funcValidD d => Sys2Proof.Machine.execFuncValidD d s
  | .funcFidiRatio fidi => Sys2Proof.Machine.execFuncFidiRatio fidi s
  | .funcCalcWt wi fi f di d => Sys2Proof.Machine.execFuncCalcWt wi fi f di d s
  | .funcClassifyCase seg => Sys2Proof.Machine.execFuncClassifyCase seg s
  | .funcClassifyPb ins b => Sys2Proof.Machine.execFuncClassifyPb ins b s
  | .funcAtrParse x => Sys2Proof.Machine.execFuncAtrParse x s
  | .funcAtrBuild x => Sys2Proof.Machine.execFuncAtrBuild x s
  | .reservedFn fn rest => Sys2Proof.Machine.execReservedFn fn rest s
  | .reservedKind0 rest => Sys2Proof.Machine.execReservedKind0 rest s
  | .reservedKind9 rest => Sys2Proof.Machine.execReservedKind9 rest s
  | .reservedKindB rest => Sys2Proof.Machine.execReservedKindB rest s
  | .reservedKindC rest => Sys2Proof.Machine.execReservedKindC rest s
  | .reservedKindD rest => Sys2Proof.Machine.execReservedKindD rest s
  | .reservedKindE rest => Sys2Proof.Machine.execReservedKindE rest s
  | .reservedKindF rest => Sys2Proof.Machine.execReservedKindF rest s

end Sys2Proof.Machine
end

