-- ==== Sys2Proof/Machine/Step.lean ====
section
/-! DEFINITION. One step: the next event of the slot's sequence is decoded and processed to completion
(rules R61, R62). The block fetches no instructions; the environment delivers its events, and `inq`
holds those it has lined up (log 1). -/

namespace Sys2Proof.Machine

/-- One step (rules R61, R62, R91). -/
def step (s : State) : Host.Outcome State Fault Refusal :=
  match s.inq with
  | [] => .refused .noEvent
  | ev :: rest =>
    match decode ev with
    | .ok i => exec i { s with inq := rest }
    | .error .reservedBits => illegalEvent { s with inq := rest }
    | .error .payloadShort => .refused .payloadShort
    | .error .payloadLong => .refused .payloadLong

/-- `s` with the event whose bits are the low `nbits` bits of `w` next in line (log 1). -/
def State.withFetchWord (s : State) (nbits w : Nat) : State :=
  { s with inq := tableEvent nbits w :: s.inq }

end Sys2Proof.Machine
end

