-- ==== Sys2Proof/Machine/Rows.lean ====
section
/-! DEFINITION. Which row of the opcode table an event is in a state: the phase vector decides (rules
R24, R100), in three places with the byte value. The finest row is chosen. -/

namespace Sys2Proof.Machine

/-- The row of a line byte with an error bit set (rule R211). Where several are set the rows overlap and do
the same; that PE is taken before OE and OE before FE is the model's order (DESIGN CHOICE, log 7). -/
def framingRowOf (dir pe oe fe : Bool) (b : Byte) : Instr :=
  if pe then .lineBytePe dir oe fe b
  else if oe then .lineByteOe dir pe fe b
  else .lineByteFe dir pe oe b

/-- The row of an error-free line byte in `InAtr` (rule R222). -/
def atrRowOf (st : AtrState) (dir : Bool) (b : Byte) : Instr :=
  match st with
  | .waitTS => .atrTs dir b
  | .waitT0 => .atrT0 dir b
  | .waitTA => .atrTa dir b
  | .waitTB => .atrTb dir b
  | .waitTC => .atrTc dir b
  | .waitTD => .atrTd dir b
  | .waitHist => .atrHist dir b
  | .waitTCK => .atrTck dir b
  | .done => .lineByteInAtr dir b

/-- The row of an error-free line byte in `InPts` (rule R224). -/
def ppsRowOf (h : PpsPhase) (p : PpsPos) (dir : Bool) (b : Byte) : Instr :=
  match p with
  | .pts0 => .ppsPts0 dir b
  | .pts1 => .ppsPts1 dir b
  | .pts2 => .ppsPts2 dir b
  | .pts3 => .ppsPts3 dir b
  | .pck =>
    match h with
    | .req => .ppsPckReq dir b
    | .resp => .ppsPckResp dir b
  | .ptss =>
    match h with
    | .req => .lineByteInPts dir b
    | .resp => .ppsPtssResp dir b

/-- The row of a procedure byte (rules R98, R256). -/
def procRowOf (ins : Byte) (dir : Bool) (b : Byte) : Instr :=
  match classifyPb ins b with
  | .null => .tpduPbNull dir
  | .sw1 =>
    if hiNibble b = 6#4 then .tpduPbSw16x dir (loNibble b) else .tpduPbSw19x dir (loNibble b)
  | .ackAll => .tpduPbAckAll dir b
  | .ackOne => .tpduPbAckOne dir b
  | .other => .tpduPbOther dir b

/-- The row of an error-free line byte in `InApdu` (rule R220). -/
def tpduRowOf (st : TpduState) (ins : Byte) (dir : Bool) (b : Byte) : Instr :=
  match st with
  | .idle => .lineByteInApdu dir b
  | .hdrIns => .tpduIns dir b
  | .hdrP1 => .tpduP1 dir b
  | .hdrP2 => .tpduP2 dir b
  | .hdrP3 => .tpduP3 dir b
  | .proc => procRowOf ins dir b
  | .data => .tpduData dir b
  | .sw2 => .tpduSw2 dir b

/-- The row of a line byte (rules R210, R223). -/
def lineRowOf (s : State) (dir pe oe fe : Bool) (b : Byte) : Instr :=
  if s.top = .reset then .lineByteReset dir pe oe fe b
  else if pe || oe || fe then framingRowOf dir pe oe fe b
  else
    match s.top with
    | .reset => .lineByteReset dir pe oe fe b
    | .waitAtr => if s.atr.st = .waitTS then .atrTs dir b else .lineByteWaitAtr dir b
    | .inAtr => atrRowOf s.atr.st dir b
    | .waitApdu => if b = 0xFF#8 then .ppsPtssReq dir else .tpduCla dir b
    | .inApdu => tpduRowOf s.tpdu.st s.tpdu.ctx.hdr.ins dir b
    | .inPts => ppsRowOf s.pps.phase s.pps.pos dir b

/-- The row of a WT expiry (rule R225). -/
def expiryRowOf (s : State) : Instr :=
  if s.timer.armed = false then .wtExpiry
  else
    match s.top with
    | .reset => .wtExpiry
    | .waitAtr => .wtExpiryWaitAtr
    | .inAtr => .wtExpiryInAtr
    | .waitApdu => .wtExpiryWaitApdu
    | .inApdu => .wtExpiryInApdu
    | .inPts => .wtExpiryInPts

/-- The row of a signal event, the tests in the order of rule R214. -/
def signalRowOf (s : State) (clk vcc rst : Bool) : Instr :=
  if rst then .signalRstAssert clk vcc
  else if !vcc then .signalVccOff clk
  else if onlyClk vcc rst s then .signalClk clk vcc rst
  else .signalRstRelease clk

/-- The finest row an instruction is in the state `s`: the row of its event. -/
def rowOf (s : State) (i : Instr) : Instr :=
  match i.event with
  | .lineByte dir pe oe fe b => lineRowOf s dir pe oe fe b
  | .wtExpiry => expiryRowOf s
  | .signal clk vcc rst => signalRowOf s clk vcc rst
  | j => j

end Sys2Proof.Machine
end

