-- ==== Sys2Proof/Machine/Slots.lean ====
section
/-! DEFINITION. The slots (rules R3, R344): `P_NUM_SLOTS` private states that share nothing. A step of
the whole machine is a step of one slot, which the environment picks (DESIGN CHOICE, log 15, safe). -/

namespace Sys2Proof.Machine

/-- All slots at power-on (rules R344, R374), one for each set of parameters; `P_NUM_SLOTS` is how many. -/
def slotsPowerOn (ps : List Params) : List State := ps.map State.powerOn

/-- Line an event up for slot `k` (rule R62). -/
def deliver (k : Nat) (ev : RawEvent) (slots : List State) : List State :=
  slots.modify k fun s => { s with inq := s.inq ++ [ev] }

/-- A step of slot `k`; there is nothing to step where there is no such slot. -/
def slotStep (k : Nat) (slots : List State) : Host.Outcome (List State) Fault Refusal :=
  match slots[k]? with
  | none => .refused .noEvent
  | some s =>
    match step s with
    | .next t => .next (slots.set k t)
    | .fault f => .fault f
    | .refused r => .refused r

end Sys2Proof.Machine
end

