-- ==== Sys2Proof/Machine/Wire.lean ====
section
/-! DEFINITION. The wire boundary (45_apdu_dispatch.md, section 3), as far as the spec gives it: the
message layout, the message catalogue (which message carries a record, which event a message carries), the
receiver loop over the receive buffer `RB` and its rejections. Numeric codes and the payload codec are
parameters: the codec is outside the block (rule R6, logs 16, 23). -/

namespace Sys2Proof.Machine

/-- `H`, the header size (rules R300, R301). -/
def headerSize (w : WireParams) : Nat :=
  match w.lenBytes with
  | .one => 4
  | .two => 5

/-- The largest length a `msg_len` field can state (rule R300). -/
def maxMsgLen (w : WireParams) : Nat :=
  match w.lenBytes with
  | .one => 255
  | .two => 65535

/-- The `msg_len` field of a message of `n` bytes (rules R66, R300). For a length it cannot state, which
the spec leaves open, it holds a free value (DESIGN CHOICE, log 21). -/
def lenField (w : WireParams) (n : Nat) : List Byte :=
  let v := if n ≤ maxMsgLen w then n else (overlongLen n).toNat
  match w.lenBytes, w.lenOrder with
  | .one, _ => [BitVec.ofNat 8 v]
  | .two, .big => [BitVec.ofNat 8 (v / 256), BitVec.ofNat 8 v]
  | .two, .little => [BitVec.ofNat 8 v, BitVec.ofNat 8 (v / 256)]

/-- A wire message (rule R300): class, type, slot and payload. -/
structure WireMsg where
  cls : Byte
  typ : Byte
  slot : Byte
  payload : List Byte
  deriving DecidableEq, Repr

/-- The bytes of a message: a flat length-prefixed concatenation, the length that of the full message
with its header (rule R300). -/
def msgBytes (w : WireParams) (m : WireMsg) : List Byte :=
  [m.cls, m.typ, m.slot] ++ lenField w (headerSize w + m.payload.length) ++ m.payload

/-- `msg_len(RB)`, read from the header at the start of `RB` (rules R66, R300). -/
def msgLen (w : WireParams) (rb : List Byte) : Nat :=
  let b3 := (rb.getD 3 0#8).toNat
  let b4 := (rb.getD 4 0#8).toNat
  match w.lenBytes, w.lenOrder with
  | .one, _ => b3
  | .two, .big => b3 * 256 + b4
  | .two, .little => b4 * 256 + b3

/-- What the receiver finds at the start of `RB` (rule R301). -/
inductive RxView where
  /-- fewer bytes than a header, or than the header's length -/
  | wait
  /-- `msg_len` below the header size -/
  | badLen
  /-- one whole message, and what is left of `RB` -/
  | message (m : WireMsg) (rest : List Byte)
  deriving DecidableEq, Repr

/-- One look of the receiver (rule R301). -/
def rxView (w : WireParams) (rb : List Byte) : RxView :=
  let h := headerSize w
  let n := msgLen w rb
  if rb.length < h then .wait
  else if n < h then .badLen
  else if rb.length < n then .wait
  else .message ⟨rb.getD 0 0#8, rb.getD 1 0#8, rb.getD 2 0#8, (rb.take n).drop h⟩ (rb.drop n)

/-- The result of checking a decoded message (rule R303). -/
inductive MsgCheck where
  | accepted (kind : WireType)
  | rejected (e : TransportErr)
  deriving DecidableEq, Repr

/-- The message kind with the message's class and type, if there is one (rules R300, R303). -/
def kindOf (w : WireParams) (m : WireMsg) : Option WireType :=
  WireType.all.find? fun k => (w.codeOf k).cls == m.cls && (w.codeOf k).typ == m.typ

/-- A message's kind, or why it is discarded: an unknown type, or a payload length that the type does
not have (rule R303). -/
def checkMsg (w : WireParams) (m : WireMsg) : MsgCheck :=
  match kindOf w m with
  | none => .rejected .unknownType
  | some kind =>
    match (w.codeOf kind).payloadLen with
    | none => .accepted kind
    | some n => if m.payload.length = n then .accepted kind else .rejected .badLength

/-! ### The catalogue -/

/-- The two transport directions (rule R302). -/
inductive WireDir where
  /-- device → host -/
  | toHost
  /-- host → device -/
  | toDevice
  deriving DecidableEq, Repr

/-- The direction of each message kind (rule R302). Those of `CARD_RESP`, an input of the bridge at the
host, and of a modem's status are the model's (DESIGN CHOICE, logs 22 and 24). -/
def wireDir : WireType → WireDir
  | .sniffChange => .toHost
  | .sniffFidi => .toHost
  | .sniffAtr => .toHost
  | .sniffPps => .toHost
  | .sniffTpdu => .toHost
  | .cardemStatus => .toHost
  | .cardemPtsInfo => .toHost
  | .cardemRxData => .toHost
  | .cardemTxData => .toDevice
  | .cardemAtrSet => .toDevice
  | .cardemCardInsert => .toDevice
  | .errorStatus => .toHost
  | .modemReset => .toDevice
  | .modemSimSelect => .toDevice
  | .modemStatus => .toHost
  | .cardAnswer => .toHost

/-- What a message carries: the payload column of rule R302, row by row. Status flags stand at their wire
places. -/
inductive WireContent where
  | status (word : Nat)
  | fidi (pts1 : Byte) (ratio : Word)
  | atr (len : Nat) (x : List Byte)
  | pps (req resp : List Byte)
  | data (reason : FlushReason) (x : List Byte)
  | tpdu (hdr : Header) (apduCase : ApduCase) (dc de : List Byte) (sw0 sw1 : Option Byte)
  | error (code : Nat) (info : ErrInfo)
  | segment (new : Bool) (seg : List Byte)
  | request (n : Word)
  | answered (sw1 sw2 : Byte) (de : List Byte)
  | atrSet (x : List Byte)
  | inserted (ins : Bool)
  | cardAnswer (r : List Byte)
  deriving DecidableEq, Repr

/-- The status flags at their wire places, `P_STATUS_BITS` (rules R8, R22). -/
def wireStatus (p : StatusBits) (f : Flags) : Nat :=
  (resetActive f).toNat <<< p.resetActive ||| (vccPresent f).toNat <<< p.vccPresent
    ||| (clkActive f).toNat <<< p.clkActive ||| (cardInserted f).toNat <<< p.cardInsert
    ||| (rcemuFlag f).toNat <<< p.rcemuActive

/-- The status flags read back from their wire places (rules R8, R22). -/
def statusOfWire (p : StatusBits) (v : Nat) : Flags :=
  mkFlags (v.testBit p.resetActive) (v.testBit p.vccPresent) (v.testBit p.clkActive)
    (v.testBit p.cardInsert) (v.testBit p.rcemuActive)

/-- The wire message a record is carried by, or `none` for a record to a local collaborator (rules R70,
R302). -/
def recordKind (m : Mode) : Record → Option WireType
  | .change _ =>
    match m with
    | .sniff => some .sniffChange
    | .cardEmu => some .cardemStatus
  | .fidi _ _ => some .sniffFidi
  | .atr _ _ => some .sniffAtr
  | .pps _ _ =>
    match m with
    | .sniff => some .sniffPps
    | .cardEmu => some .cardemPtsInfo
  | .data _ _ => some .sniffTpdu
  | .tpduDone _ => some .sniffTpdu
  | .error _ => some .errorStatus
  | .rxMore _ => some .cardemTxData
  | .txToCard _ => none
  | .complete _ _ _ => some .cardemTxData
  | .cardReset _ => none
  | .uartEnable _ _ => none
  | .uartSetFidi _ => none
  | .sendByte _ => none
  | .timerSetWtime _ => none
  | .timerArm => none
  | .timerDisarm => none

/-- What the message of a record carries, or `none` for a record to a local collaborator (rule R302). -/
def recordContent (w : WireParams) : Record → Option WireContent
  | .change f => some (.status (wireStatus w.statusBits f))
  | .fidi b ratio => some (.fidi b ratio)
  | .atr x n => some (.atr n x)
  | .pps req resp => some (.pps req resp)
  | .data x reason => some (.data reason x)
  | .tpduDone c => some (.tpdu c.hdr c.apduCase c.dc c.de c.sw0 c.sw1)
  | .error e => some (.error (errCode e) e)
  | .rxMore n => some (.request n)
  | .txToCard _ => none
  | .complete sw1 sw2 de => some (.answered sw1 sw2 de)
  | .cardReset _ => none
  | .uartEnable _ _ => none
  | .uartSetFidi _ => none
  | .sendByte _ => none
  | .timerSetWtime _ => none
  | .timerArm => none
  | .timerDisarm => none

/-- The wire message an event arrives as, or `none` for an event of the line or a query (rules R70, R302).
Rule R70 has `CARD_RESP` arrive as one message and rule R302's table gives it none: it has a kind of its
own (DESIGN CHOICE, log 22). -/
def eventKind : Instr → Option WireType
  | .apduSegNew _ => some .cardemRxData
  | .apduSegCont _ => some .cardemRxData
  | .atrSet _ => some .cardemAtrSet
  | .cardInsert _ => some .cardemCardInsert
  | .statusIn _ => some .cardemStatus
  | .cardResp _ => some .cardAnswer
  | _ => none

/-- What the message of an event carries (rules R85 to R88, R302). -/
def eventContent (w : WireParams) : Instr → Option WireContent
  | .apduSegNew x => some (.segment true x)
  | .apduSegCont x => some (.segment false x)
  | .atrSet x => some (.atrSet x)
  | .cardInsert ins => some (.inserted ins)
  | .statusIn f => some (.status (wireStatus w.statusBits f))
  | .cardResp x => some (.cardAnswer x)
  | _ => none

/-- A payload codec: the payload bytes of a content, and the content a payload spells, if any. No layout
is in the source (N16), so every codec is admitted that reads back what it writes for a record or an event;
the functions below take one as an argument (DESIGN CHOICE, log 23). -/
structure WireCodec (w : WireParams) where
  enc : WireType → WireContent → List Byte
  dec : WireType → List Byte → Option WireContent
  dec_record : ∀ m r kind x, recordKind m r = some kind → recordContent w r = some x →
    dec kind (enc kind x) = some x
  dec_event : ∀ i kind x, i.wf → eventKind i = some kind → eventContent w i = some x →
    dec kind (enc kind x) = some x

/-- The one message that carries a record of slot `nr` (rules R70, R302, R344); `none` for a record to a
local collaborator. -/
def recordMsg (w : WireParams) (c : WireCodec w) (m : Mode) (nr : Byte) (r : Record) : Option WireMsg :=
  match recordKind m r, recordContent w r with
  | some kind, some x => some ⟨(w.codeOf kind).cls, (w.codeOf kind).typ, nr, c.enc kind x⟩
  | _, _ => none

/-- The messages of a slot's `OUTQ`, in its order (rules R63, R70). -/
def outMessages (w : WireParams) (c : WireCodec w) (nr : Byte) (s : State) : List WireMsg :=
  s.outq.filterMap (recordMsg w c s.mode nr)

/-- The event a message of the given kind and content is (rules R85 to R88, R302); `none` for a content
that is no event of the block, and for one that no event word can state the length of (DESIGN CHOICE,
log 23). -/
def contentEvent (w : WireParams) : WireType → WireContent → Option Instr
  | .cardemRxData, .segment true x => if x.length < 65536 then some (.apduSegNew x) else none
  | .cardemRxData, .segment false x => if x.length < 65536 then some (.apduSegCont x) else none
  | .cardemAtrSet, .atrSet x => if x.length < 256 then some (.atrSet x) else none
  | .cardemCardInsert, .inserted ins => some (.cardInsert ins)
  | .cardemStatus, .status v => some (.statusIn (statusOfWire w.statusBits v))
  | .cardAnswer, .cardAnswer x => if x.length < 65536 then some (.cardResp x) else none
  | _, _ => none

/-- The event an accepted message of direction `dir` carries (rules R70, R302). A payload that passes the
length check of rule R303 and spells no content of its kind brings no event and is no error, and a message
of the other direction brings no event: the spec leaves both open (DESIGN CHOICE, log 23). -/
def msgEvent (w : WireParams) (c : WireCodec w) (dir : WireDir) (kind : WireType) (payload : List Byte) :
    Option Instr :=
  if wireDir kind = dir then (c.dec kind payload).bind (contentEvent w kind) else none

/-! ### The receiver -/

/-- The receiver of one transport direction (rule R301): `RB`, the accepted messages so far, and the
slots, the one of number `slot_nr` at that place of the list (rule R344). -/
structure Receiver where
  dir : WireDir
  rb : List Byte
  accepted : List (WireType × WireMsg)
  slots : List State
  deriving DecidableEq, Repr

/-- A TransportError of the receiver is raised on the slot `slot_nr` names. A slot with `FAULT` set takes
no further step (rules R11, R336) and records nothing (DEDUCED, log 20); a stopped bridge does not keep
its slot from recording it (DESIGN CHOICE, log 20). -/
def reportTo (nr : Byte) (e : TransportErr) (slots : List State) : List State :=
  slots.modify nr.toNat fun s => if s.fault = none then raise (.transport e) s else s

/-- An accepted message: its event, if it carries one, is lined up for the slot `slot_nr` names (rules
R62, R70, R344). -/
def acceptMsg (w : WireParams) (c : WireCodec w) (dir : WireDir) (kind : WireType) (m : WireMsg)
    (slots : List State) : List State :=
  match msgEvent w c dir kind m.payload with
  | none => slots
  | some i => deliver m.slot.toNat (encode i) slots

/-- One turn of the receiver loop; `none` when it waits for more bytes (rules R301, R303). A header with
a bad length still names the slot that reports it (DESIGN CHOICE, log 20). An error is recorded in the turn
that finds it, ahead of the events of earlier messages that still wait in the slot's `inq` (DESIGN CHOICE,
log 25). -/
def rxTurn (w : WireParams) (c : WireCodec w) (r : Receiver) : Option Receiver :=
  match rxView w r.rb with
  | .wait => none
  | .badLen => some { r with rb := [], slots := reportTo (r.rb.getD 2 0#8) .badMsgLen r.slots }
  | .message m rest =>
    match checkMsg w m with
    | .accepted kind => some { r with
        rb := rest, accepted := r.accepted ++ [(kind, m)]
        slots := acceptMsg w c r.dir kind m r.slots }
    | .rejected e => some { r with rb := rest, slots := reportTo m.slot e r.slots }

/-- The loop, at most `fuel` turns. -/
def rxLoop (w : WireParams) (c : WireCodec w) : Nat → Receiver → Receiver
  | 0, r => r
  | n + 1, r =>
    match rxTurn w c r with
    | none => r
    | some r' => rxLoop w c n r'

/-- Bytes `x` arrive (rule R301). Every turn shortens `RB`, so as many turns as it has bytes are
enough. -/
def receive (w : WireParams) (c : WireCodec w) (x : List Byte) (r : Receiver) : Receiver :=
  let r := { r with rb := r.rb ++ x }
  rxLoop w c r.rb.length r

end Sys2Proof.Machine
end

