-- ==== Sys2Proof/Safety.lean ====
section
/-! DEFINITION. What a correct run is (rule R377), and the invariant of a slot between events: the legal
values and invariants of 10_state.md and rule R267, and the facts about the phase vector that rules R222,
R224, R225, R234 and R264 derive. -/

namespace Sys2Proof.Machine

/-- The slot has recorded no model fault and its bridge runs (rules R336, R377). -/
abbrev correctEnd (s : State) : Prop := s.fault = none ∧ s.bridge.fatal = false

/-- The timing registers agree (rule R25): WT is `calculate_wt` of the others, and FIDI_RATIO is the
ratio of the operating pair. -/
abbrev timingInv (s : State) : Prop :=
  calcWt s.params.diTail s.timing.wi (fiOf s.timing.capFi) (diOf s.params.diTail s.timing.capDi)
      (fiOf s.timing.opFi) (diOf s.params.diTail s.timing.opDi) = .ok s.timing.wt
    ∧ fidiToRatio s.params.diTail (joinNibbles s.timing.opFi s.timing.opDi) = .ok s.timing.fidiRatio

/-- Before the first ATR commit of a session (rules R212, R213, R152). -/
abbrev beforeAtr (t : Top) : Prop := t = .reset ∨ t = .waitAtr ∨ t = .inAtr

/-- The timer is armed with WT (rules R26, R233), and never in `Reset` or `WaitAtr` (rules R225, R226). -/
abbrev timerInv (s : State) : Prop :=
  (s.timer.armed = true → s.timer.load = s.timing.wt)
    ∧ (s.top = .reset ∨ s.top = .waitAtr → s.timer.armed = false)

/-- The ATR registers (rules R27, R142, R148, R149, R222). -/
abbrev atrInv (s : State) : Prop :=
  s.atr.buf.length ≤ s.params.atrMax
    ∧ (s.top = .reset ∨ s.top = .waitAtr → s.atr = .cleared)
    ∧ (s.top = .inAtr → s.atr.st ≠ .waitTS ∧ s.atr.st ≠ .done ∧ s.atr.buf ≠ []
        ∧ s.atr.idx.toNat < s.atr.buf.length
        ∧ (s.atr.st = .waitHist → s.atr.k ≠ 0)
        ∧ (s.atr.st = .waitTCK → s.atr.tckNeeded = true ∧ s.atr.k = 0)
        ∧ (s.atr.st ≠ .waitT0 → s.atr.idx ≠ 0))
    ∧ (¬ beforeAtr s.top → s.atr.st = .done)

/-- The bytes of a PPS half when the position `p` is next (rules R28, R180, R181). -/
def ppsSoFar (p : PpsPos) (x : PpsBytes) : Bool :=
  match p, x with
  | .ptss, ⟨none, none, none, none, none, none⟩ => true
  | .pts0, ⟨some _, none, none, none, none, none⟩ => true
  | .pts1, ⟨some _, some t, none, none, none, none⟩ => hasPts1 t
  | .pts2, ⟨some _, some t, p1, none, none, none⟩ => hasPts2 t && p1.isSome == hasPts1 t
  | .pts3, ⟨some _, some t, p1, p2, none, none⟩ =>
    hasPts3 t && p1.isSome == hasPts1 t && p2.isSome == hasPts2 t
  | .pck, ⟨some _, some t, p1, p2, p3, none⟩ =>
    p1.isSome == hasPts1 t && p2.isSome == hasPts2 t && p3.isSome == hasPts3 t
  | _, _ => false

/-- A whole PPS half (rule R180). -/
def ppsWhole (x : PpsBytes) : Bool :=
  match x with
  | ⟨some _, some t, p1, p2, p3, some _⟩ =>
    p1.isSome == hasPts1 t && p2.isSome == hasPts2 t && p3.isSome == hasPts3 t
  | _ => false

/-- The XOR of a byte sequence (rules R28, R192). -/
def xorBytes (x : List Byte) : Byte := x.foldl (fun a b => a ^^^ b) 0

/-- The PPS registers (rules R28, R180, R192, R224). -/
abbrev ppsInv (s : State) : Prop :=
  (s.top ≠ .inPts → s.pps = .cleared)
    ∧ (s.top = .inPts →
        ppsSoFar s.pps.pos (phaseBytes s.pps) = true
        ∧ s.pps.xor = xorBytes (presentBytes (phaseBytes s.pps))
        ∧ (s.pps.phase = .req → s.pps.pos ≠ .ptss ∧ s.pps.resp = .empty ∧ s.pps.reqOk = false)
        ∧ (s.pps.phase = .resp → ppsWhole s.pps.req = true
            ∧ s.pps.reqOk = (xorBytes (presentBytes s.pps.req) == 0)))

/-- The counters of an ApduContext (rules R31, R267). -/
abbrev countersInv (c : ApduCtx) : Prop :=
  c.lc.cur.toNat ≤ c.lc.tot.toNat ∧ c.le.cur.toNat ≤ c.le.tot.toNat
    ∧ c.dc.length = c.lc.cur.toNat ∧ c.de.length = c.le.cur.toNat
    ∧ c.lc.tot.toNat ≤ dcCap ∧ c.le.tot.toNat ≤ deCap

/-- The TPDU header is still being read (rule R250). -/
abbrev inHeader (t : TpduState) : Prop := t = .hdrIns ∨ t = .hdrP1 ∨ t = .hdrP2 ∨ t = .hdrP3

/-- The TPDU registers (rules R30, R255, R264, R265, R267). -/
abbrev tpduInv (s : State) : Prop :=
  countersInv s.tpdu.ctx
    ∧ (s.top ≠ .inApdu → s.tpdu = .cleared)
    ∧ (s.top = .inApdu → s.tpdu.st ≠ .idle ∧ s.tpdu.ctx.sw1 = none
        ∧ (inHeader s.tpdu.st → s.tpdu.dataLeft = 0
            ∧ s.tpdu.ctx = { ApduCtx.cleared with hdr := s.tpdu.ctx.hdr })
        ∧ (¬ inHeader s.tpdu.st →
            (s.tpdu.ctx.apduCase = .case2 ∧ s.tpdu.ctx.lc.tot = 0 ∧ s.tpdu.ctx.le.tot.toNat ≤ 256)
            ∨ (s.tpdu.ctx.apduCase = .case3 ∧ s.tpdu.ctx.le.tot = 0
                ∧ s.tpdu.ctx.lc.tot.toNat ≤ 255))
        ∧ (s.tpdu.st ≠ .data → s.tpdu.dataLeft = 0)
        ∧ (s.tpdu.st = .data → s.tpdu.dataLeft ≠ 0
            ∧ s.tpdu.dataLeft.toNat ≤ ((remaining s.tpdu.ctx).getD 0).toNat)
        ∧ (s.tpdu.st = .sw2 ↔ s.tpdu.ctx.sw0 ≠ none))

/-- The bridge registers (rules R31, R32, R293 to R297). -/
abbrev bridgeInv (b : Bridge) : Prop :=
  countersInv b.ctx
    ∧ (b.valid = false → b.ctx = .cleared ∧ b.forwarded = false)
    ∧ (b.valid = true → b.ctx.apduCase ≠ .unclassified)
    ∧ (b.forwarded = true → b.ctx.lc.cur = b.ctx.lc.tot)
    ∧ (b.forwarded = false → b.ctx.sw0 = none ∧ b.ctx.de = [])
    ∧ (b.ctx.sw0 = none ↔ b.ctx.sw1 = none)

/-- The configured ATR is empty or one complete ATR that fits the buffer (rules R21, R160). -/
abbrev atrCfgInv (s : State) : Prop :=
  s.atrCfg.length ≤ s.params.atrMax
    ∧ (s.atrCfg = [] ∨ ∃ a, atrParse s.params s.atrCfg = .complete a)

/-- The invariant of a slot between events. -/
abbrev Inv (s : State) : Prop :=
  s.params.wf ∧ s.mode = s.params.mode ∧ rcemuFlag s.status = s.rcemuActive
    ∧ timingInv s ∧ (beforeAtr s.top → s.timing = .default ∧ s.obuf = [])
    ∧ s.obuf.length < s.params.obufSize
    ∧ timerInv s ∧ atrInv s ∧ atrCfgInv s ∧ ppsInv s ∧ tpduInv s ∧ bridgeInv s.bridge

/-! ### The terms of the statements about single events -/

/-- What `flush` emits (rule R231). -/
def flushed (reason : FlushReason) (x : List Byte) : List Record :=
  if x = [] then [] else [.data x reason]

/-- What `obuf_append` leaves in `OBUF` (rule R232). -/
def appendedObuf (size : Nat) (x : List Byte) (b : Byte) : List Byte :=
  if x.length + 1 = size then [] else x ++ [b]

/-- What `obuf_append` emits (rule R232). -/
def appendedOut (size : Nat) (x : List Byte) (b : Byte) : List Record :=
  if x.length + 1 = size then [.data (x ++ [b]) .full] else []

/-- What `disarm` emits (rules R212, R213). -/
def disarmed (armed : Bool) : List Record := if armed = true then [.timerDisarm] else []

/-- The state after a line byte that was handed to a rule: `t` is the state the rule leaves, `out` what
it emits, and then the timer is loaded and armed with WT (rule R233). -/
def afterByte (t : State) (out : List Record) : State :=
  { t with
    timer := ⟨true, t.timing.wt⟩
    outq := t.outq ++ out ++ [.timerSetWtime t.timing.wt, .timerArm] }

/-- The sub-state after the byte that gave the presence nibble `y`, or after interface kind `k0 - 1` of
its group (rules R141, R144, R148). -/
def atrNext (y : Nibble) (k0 : Nat) (k : Nibble) (tck : Bool) : AtrState :=
  match firstPresent y k0 with
  | some kind => waitOf kind
  | none => if k ≠ 0 then .waitHist else if tck = true then .waitTCK else .done

/-- What ATR completion passes to `calculate_wt` as Fi index, Di index and WI (rule R152). -/
def atrOffer (t : Timing) (r : AtrRegs) : Nibble × Nibble × Byte :=
  ((r.ta1.map hiNibble).getD t.capFi, (r.ta1.map loNibble).getD t.capDi, r.wi.getD t.wi)

/-- The slot after an ATR byte that leaves the registers `r`: it goes on, or the ATR is complete, and
then the records go out and the timing is committed or the error reported (rules R151, R152). -/
def afterAtrByte (s : State) (r : AtrRegs) : State :=
  if r.st ≠ .done then afterByte { s with atr := r } []
  else
    let t := { s with atr := r, obuf := [], top := .waitApdu, tpdu := .cleared }
    let out := flushed .atrDone s.obuf ++ [.atr r.buf r.buf.length]
    let (fi, di, wi) := atrOffer s.timing r
    match calcWt s.params.diTail wi (fiOf fi) (diOf s.params.diTail di) 372#16 1#8 with
    | .ok wt =>
      afterByte { t with timing :=
        { s.timing with capFi := fi, capDi := di, wi := wi, wt := wt } } out
    | .err e =>
      afterByte { t with lastErr := some (.timing e .atr) } (out ++ [.error (.timing e .atr)])

/-- The slot after a TPDU byte `b` in `InApdu` or `WaitApdu` that leaves the registers `r`: the byte has
joined `OBUF` (rules R220, R223, R232). -/
def afterTpduByte (s : State) (b : Byte) (r : TpduRegs) (out : List Record) : State :=
  afterByte { s with
      obuf := appendedObuf s.params.obufSize s.obuf b, top := .inApdu, tpdu := r }
    (appendedOut s.params.obufSize s.obuf b ++ out)

/-- The slot in `Reset` after leaving another phase, `STATUS` and `OUTQ` left to the event (rule
R212). -/
def inReset (s : State) : State :=
  { s with
    obuf := [], timer := ⟨false, s.timer.load⟩, timing := .default, atr := .cleared
    pps := .cleared, tpdu := .cleared, top := .reset }

/-- What `Reset` entry emits (rule R212). -/
def resetOut (s : State) : List Record :=
  (match s.params.resetFlush with
    | .flush => flushed .reset s.obuf
    | .discard => []) ++ [.uartEnable false false] ++ disarmed s.timer.armed

/-- The slot after `WaitAtr` entry, `OUTQ` left to the event (rule R213). -/
def inWaitAtr (s : State) : State :=
  { s with
    timer := ⟨false, 9600⟩, timing := .default, atr := .cleared
    pps := .cleared, tpdu := .cleared, top := .waitAtr }

/-- What `WaitAtr` entry emits (rules R161, R213). -/
def waitAtrOut (s : State) : List Record :=
  [.uartSetFidi 372] ++ disarmed s.timer.armed ++ [.uartEnable true (s.mode == .cardEmu)]
    ++ (if s.mode = .cardEmu then (emulatedAtr s).map .sendByte else [])

/-- The slot after a bridge rule that leaves the bridge registers `b` and emits `out`. -/
def afterBridge (s : State) (b : Bridge) (out : List Record) : State :=
  { s with bridge := b, outq := s.outq ++ out }

/-- The slot after an error report (rule R330). -/
def afterError (s : State) (e : ErrInfo) : State :=
  { s with lastErr := some e, outq := s.outq ++ [.error e] }

/-- The events of the bridge agent (rules R299, R339). -/
def ofBridge : Instr → Bool
  | .apduSegNew _ => true
  | .apduSegCont _ => true
  | .cardResp _ => true
  | .statusIn _ => true
  | _ => false

/-- The mask of the reserved bits of an event word (rules R80, R89, R91). -/
def reservedMask (w : Word) : Word :=
  match (w.extractLsb' 28 4).toNat with
  | 1 => 0x07FFF800#32
  | 2 => 0x0FFFFFFF#32
  | 3 => 0x0FFFFFF8#32
  | 4 => 0x0FFFFFFE#32
  | 5 => 0x0FFFFF00#32
  | 6 => 0x0FFE0000#32
  | 7 => 0x0FFF0000#32
  | 8 => 0x0FFFFFE0#32
  | 10 =>
    match (w.extractLsb' 24 4).toNat with
    | 0 => 0x00FF0000#32
    | 1 => 0x00FFFF00#32
    | 2 => 0x00FFFF00#32
    | 3 => 0x00FFFF00#32
    | 4 => 0x00FF0000#32
    | 5 => 0x00FF0000#32
    | 6 => 0x00FFFF00#32
    | 7 => 0x00FFFF00#32
    | _ => 0
  | _ => 0

end Sys2Proof.Machine
end

