-- ==== Sys2Proof/Certificates/Slice0/Obligations.lean ====
section
/-! DEFINITION. The statements for the provers. Each docstring names the rules it formalises. -/

open Sys2Proof Sys2Proof.Machine

/-! ### Encoding and the step -/

/-- Decoding the word and payload a row is written with gives its event back, every operand with it
(rules R80 to R90, R92). Two of the decoder's answers are the model's: a phase-qualified row's word is
answered with its event row (DESIGN CHOICE, log 7), and a word of a reserved KIND or FN, which spells no
event and which a decoder refuses by rule R91, with its `RESERVED` row (DEDUCED, log 8). -/
def Obligations.EncodedRowDecodesToItsEvent : Prop :=
  ∀ i : Instr, i.wf → decode (encode i) = .ok i.event

/-- What the decoder accepts has one spelling only: it is a well-formed event row and the very word and
payload the encoder writes for it, so no reserved bit of a KIND and FN in use and no stray payload byte is
accepted (rules R80, R91, R92). Among the rows accepted are the `RESERVED` ones, whose words spell no
event by rule R91: that the decoder names them instead of refusing them is the model's (DEDUCED, log 8). -/
def Obligations.DecodedEventHasOneSpelling : Prop :=
  ∀ (ev : RawEvent) (i : Instr), decode ev = .ok i → i.wf ∧ i.event = i ∧ encode i = ev

/-- The decoder rejects a word for its reserved bits exactly if its KIND and FN are in use and a bit they do
not name is set (rules R80, R81, R91). That a word of a reserved KIND or FN is not rejected so but answered
with its `RESERVED` row, and that reserved bits are looked at before the payload's length, is the model's
(log 8). -/
def Obligations.ReservedBitsAreRejected : Prop :=
  ∀ ev : RawEvent, decode ev = .error .reservedBits ↔ ev.word &&& reservedMask ev.word ≠ 0

/-- A few words written out from rules R80 to R90 and the instruction each stands for, and the refusals of
rule R91. That 0xB0000000, whose KIND is reserved, is answered with its `RESERVED` row is the model's
(DEDUCED, log 8). -/
def Obligations.WordsOfTheSpecDecode : Prop :=
  decode ⟨0x1000003B, []⟩ = .ok (.lineByte false false false false 0x3B)
    ∧ decode ⟨0x1000043B, []⟩ = .ok (.lineByte false true false false 0x3B)
    ∧ decode ⟨0x20000000, []⟩ = .ok .wtExpiry
    ∧ decode ⟨0x30000007, []⟩ = .ok (.signal true true true)
    ∧ decode ⟨0x40000001, []⟩ = .ok (.cardInsert true)
    ∧ decode ⟨0x50000002, [0x3B, 0x00]⟩ = .ok (.atrSet [0x3B, 0x00])
    ∧ decode ⟨0x60010005, [0x00, 0xA4, 0x00, 0x00, 0x02]⟩
        = .ok (.apduSegNew [0x00, 0xA4, 0x00, 0x00, 0x02])
    ∧ decode ⟨0x60000001, [0x3F]⟩ = .ok (.apduSegCont [0x3F])
    ∧ decode ⟨0x70000002, [0x90, 0x00]⟩ = .ok (.cardResp [0x90, 0x00])
    ∧ decode ⟨0x80000003, []⟩ = .ok (.statusIn 3)
    ∧ decode ⟨0xA2000094, []⟩ = .ok (.funcFidiRatio 0x94)
    ∧ decode ⟨0xA300000A, [0x02, 0x00, 0x01, 0x74, 0x08, 0x01]⟩
        = .ok (.funcCalcWt 10 512 372 8 1)
    ∧ decode ⟨0xA500A45B, []⟩ = .ok (.funcClassifyPb 0xA4 0x5B)
    ∧ decode ⟨0xB0000000, []⟩ = .ok (.reservedKindB 0)
    ∧ decode ⟨0x10000800, []⟩ = .error .reservedBits
    ∧ decode ⟨0x50000002, [0x3B]⟩ = .error .payloadShort

/-- A step takes the next event of the sequence and runs what it decodes to; a word with a reserved bit
set is the model fault of rule R336, and a payload that does not fit its word is refused (rules R61,
R62, R91; the refusals are the model's choice, log 8). An instruction placed by `withFetchWord` is the
next to run, and runs in the state as it was (log 1). -/
def Obligations.StepRunsTheDecodedEvent : Prop :=
  ∀ (s : State) (ev : RawEvent) (rest : List RawEvent), s.inq = ev :: rest →
    (∀ i, decode ev = .ok i → step s = exec i { s with inq := rest })
    ∧ (decode ev = .error .reservedBits → s.fault = none →
        step s = .next { s with inq := rest, fault := some .illegalEvent })
    ∧ (decode ev = .error .payloadShort → step s = .refused .payloadShort)
    ∧ (decode ev = .error .payloadLong → step s = .refused .payloadLong)
    ∧ (∀ (u : State) (nbits w : Nat) (i : Instr), decodeTableWord nbits w = some i →
        step (u.withFetchWord nbits w) = exec i u)

/-- Every phase row of the opcode table does what its event does, in every state: in the states it is for
that is what rules R24, R100, R210, R214 and R225 say, and in every other state it is the model's choice
(DESIGN CHOICE, log 7). -/
def Obligations.RowDoesWhatItsEventDoes : Prop :=
  ∀ (i : Instr) (s : State), exec i s = exec i.event s

/-- The row each phase vector selects, with the byte value where the spec says so (rules R24, R100, R210,
R214, R220 to R225), and that the row selected is one of the event, well formed, and does what the
instruction does. (What a row does outside its phase is the model's choice, log 7; here each row is in its
phase.) Of the three error rows, which overlap, PE is taken before OE and OE before FE: rule R211 gives no
order, and this one is the model's (DESIGN CHOICE, log 7). That 0x60 is NULL and the rest of 0x6X is SW1 is
decision D25, general knowledge by rule R256's own mark (PRESUMED, log 17). -/
def Obligations.PhaseVectorSelectsARow : Prop :=
  ∀ s : State,
    (∀ i : Instr, exec (rowOf s i) s = exec i s ∧ (rowOf s i).event = i.event
      ∧ (i.event.wf → (rowOf s i).wf))
    ∧ (s.top = .reset → ∀ dir pe oe fe b,
        rowOf s (.lineByte dir pe oe fe b) = .lineByteReset dir pe oe fe b)
    ∧ (s.top ≠ .reset → ∀ dir x y b,
        rowOf s (.lineByte dir true x y b) = .lineBytePe dir x y b
        ∧ rowOf s (.lineByte dir false true y b) = .lineByteOe dir false y b
        ∧ rowOf s (.lineByte dir false false true b) = .lineByteFe dir false false b)
    ∧ (∀ (dir : Bool) (b : Byte), ∃ row : Instr, row = rowOf s (.lineByte dir false false false b)
      ∧ (s.top = .waitAtr → s.atr.st = .waitTS → row = .atrTs dir b)
      ∧ (s.top = .inAtr →
          (s.atr.st = .waitT0 → row = .atrT0 dir b) ∧ (s.atr.st = .waitTA → row = .atrTa dir b)
          ∧ (s.atr.st = .waitTB → row = .atrTb dir b) ∧ (s.atr.st = .waitTC → row = .atrTc dir b)
          ∧ (s.atr.st = .waitTD → row = .atrTd dir b)
          ∧ (s.atr.st = .waitHist → row = .atrHist dir b)
          ∧ (s.atr.st = .waitTCK → row = .atrTck dir b))
      ∧ (s.top = .waitApdu →
          (b = 0xFF#8 → row = .ppsPtssReq dir) ∧ (b ≠ 0xFF#8 → row = .tpduCla dir b))
      ∧ (s.top = .inPts →
          (s.pps.pos = .pts0 → row = .ppsPts0 dir b) ∧ (s.pps.pos = .pts1 → row = .ppsPts1 dir b)
          ∧ (s.pps.pos = .pts2 → row = .ppsPts2 dir b) ∧ (s.pps.pos = .pts3 → row = .ppsPts3 dir b)
          ∧ (s.pps.phase = .req → s.pps.pos = .pck → row = .ppsPckReq dir b)
          ∧ (s.pps.phase = .resp → s.pps.pos = .ptss → row = .ppsPtssResp dir b)
          ∧ (s.pps.phase = .resp → s.pps.pos = .pck → row = .ppsPckResp dir b))
      ∧ (s.top = .inApdu →
          (s.tpdu.st = .hdrIns → row = .tpduIns dir b) ∧ (s.tpdu.st = .hdrP1 → row = .tpduP1 dir b)
          ∧ (s.tpdu.st = .hdrP2 → row = .tpduP2 dir b) ∧ (s.tpdu.st = .hdrP3 → row = .tpduP3 dir b)
          ∧ (s.tpdu.st = .data → row = .tpduData dir b) ∧ (s.tpdu.st = .sw2 → row = .tpduSw2 dir b)
          ∧ (s.tpdu.st = .proc →
              (b = 0x60#8 → row = .tpduPbNull dir)
              ∧ (b ≠ 0x60#8 → hiNibble b = 6#4 → row = .tpduPbSw16x dir (loNibble b))
              ∧ (hiNibble b = 9#4 → row = .tpduPbSw19x dir (loNibble b))
              ∧ (ackByte b →
                  (b = s.tpdu.ctx.hdr.ins → row = .tpduPbAckAll dir b)
                  ∧ (b = ~~~ s.tpdu.ctx.hdr.ins → row = .tpduPbAckOne dir b)
                  ∧ (b ≠ s.tpdu.ctx.hdr.ins → b ≠ ~~~ s.tpdu.ctx.hdr.ins →
                      row = .tpduPbOther dir b)))))
    ∧ (s.timer.armed = true →
        (s.top = .waitAtr → rowOf s .wtExpiry = .wtExpiryWaitAtr)
        ∧ (s.top = .inAtr → rowOf s .wtExpiry = .wtExpiryInAtr)
        ∧ (s.top = .waitApdu → rowOf s .wtExpiry = .wtExpiryWaitApdu)
        ∧ (s.top = .inApdu → rowOf s .wtExpiry = .wtExpiryInApdu)
        ∧ (s.top = .inPts → rowOf s .wtExpiry = .wtExpiryInPts))
    ∧ (∀ clk vcc : Bool,
        rowOf s (.signal clk vcc true) = .signalRstAssert clk vcc
        ∧ rowOf s (.signal clk false false) = .signalVccOff clk
        ∧ (resetActive s.status = true → s.top = .reset →
            rowOf s (.signal clk true false) = .signalRstRelease clk)
        ∧ (resetActive s.status = false ∨ s.top ≠ .reset →
            rowOf s (.signal clk true false) = .signalClk clk true false))

/-! ### Reset values, faults and the invariant -/

/-- Every field of a slot at power-on (rule R36), for all parameters. -/
def Obligations.PowerOnValues : Prop :=
  ∀ p : Params, ∃ s, s = State.powerOn p ∧ s.params = p ∧ s.mode = p.mode
    ∧ s.top = .reset ∧ s.status = 0 ∧ s.rcemuActive = false ∧ s.atrCfg = []
    ∧ s.timing = ⟨1, 1, 1, 1, 10, 9600, 372⟩ ∧ s.timer = ⟨false, 9600⟩
    ∧ s.atr = ⟨.waitTS, 0, 0, 0, false, [], none, none⟩
    ∧ s.pps = ⟨.req, .ptss, .empty, .empty, 0, false⟩ ∧ s.obuf = []
    ∧ s.tpdu = ⟨.idle, 0, .cleared⟩ ∧ s.bridge = ⟨.cleared, false, false, false, false, 0⟩
    ∧ s.lastErr = none ∧ s.fault = none ∧ s.outq = []

/-- A slot at power-on meets the invariant, for all parameters the spec allows (rules R25, R36). -/
def Obligations.PowerOnMeetsTheInvariant : Prop :=
  ∀ p : Params, p.wf → Inv (State.powerOn p)

/-- Every step keeps the invariant of 10_state.md, from every state that meets it (rules R25 to R32,
R267). -/
def Obligations.StepKeepsTheInvariant : Prop :=
  ∀ s t : State, Inv s → step s = .next t → Inv t

/-- In a state that meets the invariant every event completes: the Lean fault for phase vectors that
never hold is not reached (rules R222, R224, R225, R264, R295). -/
def Obligations.EveryEventCompletesUnderTheInvariant : Prop :=
  ∀ (i : Instr) (s : State), Inv s → ∃ t, exec i s = .next t

/-- A slot with a model fault takes no step on any event, line side, bridge or query (rule R336). That
the event is consumed is the model's reading (log 5). -/
def Obligations.FaultedSlotTakesNoStep : Prop :=
  ∀ (i : Instr) (s : State), s.fault ≠ none → exec i s = .next s

/-- Each reserved event word, whatever its other bits, puts the slot into the model fault IllegalEvent
and writes nothing else (rules R91, R336). -/
def Obligations.ReservedWordsAreIllegalEvents : Prop :=
  ∀ (s : State) (fn : BitVec 3) (r : BitVec 24) (x : BitVec 28), s.fault = none →
    exec (.reservedFn fn r) s = .next { s with fault := some .illegalEvent }
    ∧ exec (.reservedKind0 x) s = .next { s with fault := some .illegalEvent }
    ∧ exec (.reservedKind9 x) s = .next { s with fault := some .illegalEvent }
    ∧ exec (.reservedKindB x) s = .next { s with fault := some .illegalEvent }
    ∧ exec (.reservedKindC x) s = .next { s with fault := some .illegalEvent }
    ∧ exec (.reservedKindD x) s = .next { s with fault := some .illegalEvent }
    ∧ exec (.reservedKindE x) s = .next { s with fault := some .illegalEvent }
    ∧ exec (.reservedKindF x) s = .next { s with fault := some .illegalEvent }

/-- The transition table: every change of `TOP` is one of its twelve rows (rule R234). -/
def Obligations.TopChangesOnlyByTheTable : Prop :=
  ∀ (i : Instr) (s t : State), exec i s = .next t → t.top ≠ s.top →
    (s.top ≠ .reset ∧ t.top = .reset
      ∧ ∃ clk vcc rst, i.event = .signal clk vcc rst ∧ (rst = true ∨ vcc = false))
    ∨ (s.top = .reset ∧ t.top = .waitAtr ∧ resetActive s.status = true
      ∧ ∃ clk, i.event = .signal clk true false)
    ∨ (∃ dir b, i.event = .lineByte dir false false false b
      ∧ ((s.top = .waitAtr ∧ t.top = .inAtr)
        ∨ (s.top = .inAtr ∧ t.top = .waitApdu ∧ t.atr.st = .done)
        ∨ (s.top = .waitApdu ∧ t.top = .inPts ∧ b = 0xFF#8)
        ∨ (s.top = .waitApdu ∧ t.top = .inApdu ∧ b ≠ 0xFF#8)
        ∨ (s.top = .inApdu ∧ t.top = .waitApdu ∧ s.tpdu.st = .sw2)
        ∨ (s.top = .inPts ∧ t.top = .waitApdu ∧ s.pps.phase = .resp ∧ s.pps.pos = .pck)))
    ∨ (i.event = .wtExpiry ∧ s.timer.armed = true
      ∧ ((s.top = .inAtr ∧ t.top = .waitAtr ∧ s.params.wtInAtr = .abortToWaitAtr)
        ∨ (s.top = .inApdu ∧ t.top = .waitApdu)
        ∨ (s.top = .inPts ∧ t.top = .waitApdu)))

/-! ### Line bytes -/

/-- A line byte with an error bit set is reported and does nothing else, in every phase but `Reset`
(rules R211, R332). -/
def Obligations.FramingErrorIsReportedOnly : Prop :=
  ∀ (s : State) (dir x y : Bool) (b : Byte), s.fault = none → s.top ≠ .reset →
    exec (.lineBytePe dir x y b) s = .next (afterError s (.framing b true x y))
    ∧ exec (.lineByteOe dir x y b) s = .next (afterError s (.framing b x true y))
    ∧ exec (.lineByteFe dir x y b) s = .next (afterError s (.framing b x y true))

/-- In `Reset` a line byte is ignored, error bits or not (rules R210, R236). -/
def Obligations.LineByteInResetIsIgnored : Prop :=
  ∀ (s : State) (dir pe oe fe : Bool) (b : Byte), s.top = .reset →
    exec (.lineByteReset dir pe oe fe b) s = .next s
    ∧ exec (.lineByte dir pe oe fe b) s = .next s

/-- A line byte the block does not ignore completes, from every state that meets the invariant: with an
error bit it is reported only; else, where it meets a full ATR buffer in `InAtr`, it is the fault
AtrOverflow, and everywhere else it is handled by the phase's rule and the timer is armed with WT as it is
after the byte (rules R142, R210, R211, R233). -/
def Obligations.LineByteCompletes : Prop :=
  ∀ (s : State) (dir pe oe fe : Bool) (b : Byte), Inv s → s.fault = none → s.top ≠ .reset →
    ((pe || oe || fe) = true →
      exec (.lineByte dir pe oe fe b) s = .next (afterError s (.framing b pe oe fe)))
    ∧ ((pe || oe || fe) = false → s.top = .inAtr → s.atr.buf.length = s.params.atrMax →
      exec (.lineByte dir pe oe fe b) s = .next { s with fault := some .atrOverflow })
    ∧ ((pe || oe || fe) = false → s.top ≠ .inAtr ∨ s.atr.buf.length ≠ s.params.atrMax →
      ∃ t, exec (.lineByte dir pe oe fe b) s = .next t
      ∧ t.fault = none ∧ t.top ≠ .reset ∧ t.timer = ⟨true, t.timing.wt⟩
      ∧ ∃ out, t.outq = s.outq ++ out ++ [.timerSetWtime t.timing.wt, .timerArm])

/-! ### The ATR -/

/-- The first line byte in `WaitAtr` is TS, whatever its value (rules R143, R221). -/
def Obligations.FirstByteStartsTheAtr : Prop :=
  ∀ (s : State) (dir : Bool) (b : Byte),
    s.fault = none → s.top = .waitAtr → s.atr.buf.length ≠ s.params.atrMax →
    exec (.lineByteWaitAtr dir b) s = .next (afterByte { s with
        top := .inAtr, atr := { s.atr with buf := s.atr.buf ++ [b], st := .waitT0 } } [])
    ∧ exec (.atrTs dir b) s = exec (.lineByteWaitAtr dir b) s

/-- The ATR byte rules of `InAtr`, T0 to TCK: with a full buffer the fault AtrOverflow, else the registers
each leaves, and completion with the commit where the sub-state becomes `Done` (rules R142, R144 to R152).
That TCK is needed exactly if some TDi has a low nibble other than 0 is decision D10, general knowledge by
rule R141's own mark (PRESUMED, log 17). -/
def Obligations.AtrBytesAreRead : Prop :=
  ∀ (s : State) (dir : Bool) (b : Byte),
    s.fault = none → s.top = .inAtr →
    (s.atr.buf.length = s.params.atrMax → s.atr.st ≠ .waitTS → s.atr.st ≠ .done →
      exec (atrRowOf s.atr.st dir b) s = .next { s with fault := some .atrOverflow })
    ∧ (s.atr.buf.length ≠ s.params.atrMax →
    ∃ r : AtrRegs, r = { s.atr with buf := s.atr.buf ++ [b] }
    ∧ (s.atr.st = .waitT0 → exec (.atrT0 dir b) s = .next (afterAtrByte s { r with
        y := hiNibble b, k := loNibble b, idx := 1
        st := atrNext (hiNibble b) 0 (loNibble b) r.tckNeeded }))
    ∧ (s.atr.st = .waitTA → exec (.atrTa dir b) s = .next (afterAtrByte s { r with
        ta1 := if r.idx = 1 then some b else r.ta1, st := atrNext r.y 1 r.k r.tckNeeded }))
    ∧ (s.atr.st = .waitTB → exec (.atrTb dir b) s = .next (afterAtrByte s { r with
        st := atrNext r.y 2 r.k r.tckNeeded }))
    ∧ (s.atr.st = .waitTC → exec (.atrTc dir b) s = .next (afterAtrByte s { r with
        wi := if r.idx = s.params.wiTcIndex then some b else r.wi
        st := atrNext r.y 3 r.k r.tckNeeded }))
    ∧ (s.atr.st = .waitTD → exec (.atrTd dir b) s = .next (afterAtrByte s { r with
        tckNeeded := r.tckNeeded || loNibble b != 0, y := hiNibble b, idx := r.idx + 1
        st := atrNext (hiNibble b) 0 r.k (r.tckNeeded || loNibble b != 0) }))
    ∧ (s.atr.st = .waitHist → exec (.atrHist dir b) s = .next (afterAtrByte s { r with
        k := r.k - 1
        st := if r.k - 1 ≠ 0 then .waitHist
          else if r.tckNeeded = true then .waitTCK else .done }))
    ∧ (s.atr.st = .waitTCK → exec (.atrTck dir b) s = .next (afterAtrByte s { r with
        st := .done })))

/-- In `InAtr` the sub-state selects the byte rule; the byte joins `ATR_BUF` and never `OBUF`, the phase
stays or the ATR is complete (rule R222). -/
def Obligations.InAtrDispatchesOnTheSubState : Prop :=
  ∀ (s : State) (dir : Bool) (b : Byte),
    s.fault = none → s.top = .inAtr → s.atr.st ≠ .done → s.atr.buf.length ≠ s.params.atrMax →
    exec (.lineByteInAtr dir b) s = exec (atrRowOf s.atr.st dir b) s
    ∧ ∃ t, exec (.lineByteInAtr dir b) s = .next t ∧ t.atr.buf = s.atr.buf ++ [b]
      ∧ ((t.top = .inAtr ∧ t.atr.st ≠ .done ∧ t.obuf = s.obuf ∧ t.tpdu = s.tpdu
            ∧ t.timing = s.timing ∧ t.lastErr = s.lastErr)
          ∨ (t.top = .waitApdu ∧ t.atr.st = .done ∧ t.obuf = [] ∧ t.tpdu = .cleared
            ∧ ∃ pre post, t.outq = s.outq ++ pre ++ [.atr t.atr.buf t.atr.buf.length] ++ post))
      ∧ t.timer = ⟨true, t.timing.wt⟩ ∧ t.params = s.params ∧ t.mode = s.mode
      ∧ t.atrCfg = s.atrCfg ∧ t.rcemuActive = s.rcemuActive ∧ t.status = s.status
      ∧ t.pps = s.pps ∧ t.bridge = s.bridge ∧ t.fault = none ∧ t.inq = s.inq
      ∧ t.queryPort = s.queryPort

/-- A byte for a full ATR buffer is the model fault AtrOverflow and has no other effect (rules R142,
R336). -/
def Obligations.AtrOverflowReplacesTheEvent : Prop :=
  ∀ (s : State) (dir : Bool) (b : Byte), s.fault = none →
    (s.top = .waitAtr ∨ (s.top = .inAtr ∧ s.atr.st ≠ .done)) →
    s.atr.buf.length = s.params.atrMax →
    exec (.lineByte dir false false false b) s = .next { s with fault := some .atrOverflow }
    ∧ exec (atrRowOf s.atr.st dir b) s = .next { s with fault := some .atrOverflow }

/-- The ATR commit can fail with InvalidWi, InvalidF or InvalidD, never with ProtocolViolation, and when
it succeeds WT is WI * 960 * (Fi / 372) * Di (rules R124, R152). -/
def Obligations.AtrCommitNeverViolatesTheProtocol : Prop :=
  ∀ (t : DiTail) (wi : Byte) (fi di : Nibble),
    calcWt t wi (fiOf fi) (diOf t di) 372#16 1#8 ≠ .err .protocolViolation
    ∧ ∀ v, calcWt t wi (fiOf fi) (diOf t di) 372#16 1#8 = .ok v →
      v.toNat = wi.toNat * 960 * ((fiOf fi).toNat / 372) * (diOf t di).toNat

/-- Parsing and building are inverse: what `atr_parse` completes on is exactly what `atr_build` gives
back, for every well-formed structure and every byte sequence (rule R158); `Trailing` says that a proper
beginning of the bytes is complete, and where it ends (rule R154). When TCK is needed is PRESUMED (log 17)
in both. -/
def Obligations.AtrParseAndBuildAreInverse : Prop :=
  ∀ p : Params,
    (∀ a : AtrStruct, atrWf p.atrMax a = true →
      ∃ x, atrBuild p a = .bytes x ∧ atrParse p x = .complete a)
    ∧ (∀ (x : List Byte) (a : AtrStruct), atrParse p x = .complete a →
      atrWf p.atrMax a = true ∧ atrBuild p a = .bytes x)
    ∧ (∀ (x : List Byte) (a : AtrStruct) (n : Nat),
      atrParse p x = .trailing a n ↔ n < x.length ∧ atrParse p (x.take n) = .complete a)

/-- `ATR_SET` stores the payload if it is empty or one complete ATR, in every phase and both modes; else
it reports AtrSetMalformed and keeps the old one (rule R160). -/
def Obligations.AtrSetStoresCompleteAtrs : Prop :=
  ∀ (s : State) (x : List Byte), s.fault = none →
    (x = [] ∨ (∃ a, atrParse s.params x = .complete a) →
      exec (.atrSet x) s = .next { s with atrCfg := x })
    ∧ (x ≠ [] → (∀ a, atrParse s.params x ≠ .complete a) →
      exec (.atrSet x) s = .next (afterError s (.transport .atrSetMalformed)))

/-! ### The PPS exchange -/

/-- A line byte in `WaitApdu`: 0xFF is PTSS and enters `InPts` with `OBUF` untouched; any other byte is
CLA, joins `OBUF` and starts a TPDU from a cleared context (rules R182, R223, R251). -/
def Obligations.WaitApduEntersPpsOrTpdu : Prop :=
  ∀ (s : State) (dir : Bool) (b : Byte), s.fault = none → s.top = .waitApdu →
    exec (.ppsPtssReq dir) s = .next (afterByte { s with
        top := .inPts
        pps := ⟨.req, .pts0, ⟨some 0xFF#8, none, none, none, none, none⟩, .empty, 0xFF#8, false⟩ }
      [])
    ∧ exec (.lineByteWaitApdu dir 0xFF#8) s = exec (.ppsPtssReq dir) s
    ∧ (b ≠ 0xFF#8 →
      exec (.tpduCla dir b) s = .next (afterTpduByte s b
        ⟨.hdrIns, 0, { ApduCtx.cleared with hdr := ⟨b, 0, 0, 0, 0⟩ }⟩ [])
      ∧ exec (.lineByteWaitApdu dir b) s = exec (.tpduCla dir b) s)

/-- The PPS bytes before a check byte are stored, folded into the XOR, and the half's own PTS0 decides the
next position (rules R181, R183 to R186, R190). -/
def Obligations.PpsBytesAreRead : Prop :=
  ∀ (s : State) (dir : Bool) (b : Byte), s.fault = none → s.top = .inPts →
    (s.pps.pos = .pts0 → exec (.ppsPts0 dir b) s = .next (afterByte { s with
        pps := { ppsTake b s.pps with pos := nextPos .pts0 b } } []))
    ∧ (∀ t, (phaseBytes s.pps).pts0 = some t → s.pps.pos = .pts1 →
        exec (.ppsPts1 dir b) s = .next (afterByte { s with
          pps := { ppsTake b s.pps with pos := nextPos .pts1 t } } []))
    ∧ (∀ t, (phaseBytes s.pps).pts0 = some t → s.pps.pos = .pts2 →
        exec (.ppsPts2 dir b) s = .next (afterByte { s with
          pps := { ppsTake b s.pps with pos := nextPos .pts2 t } } []))
    ∧ (s.pps.pos = .pts3 → exec (.ppsPts3 dir b) s = .next (afterByte { s with
        pps := { ppsTake b s.pps with pos := .pck } } []))
    ∧ (s.pps.phase = .resp → s.pps.pos = .ptss →
        exec (.ppsPtssResp dir b) s = .next (afterByte { s with
          pps := { s.pps with
            resp := { s.pps.resp with ptss := some b }, xor := s.pps.xor ^^^ b, pos := .pts0 } } []))

/-- The request's check byte: good exactly if it makes the XOR zero, reported if not; the response half
begins either way, and an emulated card sends its response (rules R187, R189). That a good check byte makes
the XOR zero is general knowledge by rule R192's own mark (PRESUMED, log 17). -/
def Obligations.PpsRequestEnds : Prop :=
  ∀ (s : State) (dir : Bool) (b : Byte),
    s.fault = none → s.top = .inPts → s.pps.phase = .req → s.pps.pos = .pck →
    ∃ req : PpsBytes, req = { s.pps.req with pck := some b }
    ∧ exec (.ppsPckReq dir b) s = .next (afterByte { s with
        pps := ⟨.resp, .ptss, req, s.pps.resp, 0, s.pps.xor ^^^ b == 0⟩
        lastErr := if s.pps.xor ^^^ b = 0 then s.lastErr else some (.pckMismatch .req) }
      ((if s.pps.xor ^^^ b = 0 then [] else [.error (.pckMismatch .req)])
        ++ (if s.mode = .cardEmu then
            (ppsResponse s.params.ppsResponse (presentBytes req)).map .sendByte else [])))

/-- The response's check byte ends the exchange in `WaitApdu`: the timing is committed, refused with a
TimingError, or left alone, and the records leave in the rule's order (rule R188). That a good check byte
makes the XOR zero is general knowledge by rule R192's own mark (PRESUMED, log 17). -/
def Obligations.PpsResponseCommits : Prop :=
  ∀ (s : State) (dir : Bool) (b : Byte),
    s.fault = none → s.top = .inPts → s.pps.phase = .resp → s.pps.pos = .pck →
    ∃ (t : State) (out : List Record),
    t = { s with obuf := [], top := .waitApdu, pps := .cleared }
    ∧ out = flushed .ppsDone s.obuf
        ++ [.pps (presentBytes s.pps.req) (presentBytes { s.pps.resp with pck := some b })]
    ∧ (s.pps.xor ^^^ b ≠ 0 → exec (.ppsPckResp dir b) s = .next (afterByte
        { t with lastErr := some (.pckMismatch .resp) } (.error (.pckMismatch .resp) :: out)))
    ∧ (s.pps.xor ^^^ b = 0 → s.pps.reqOk = false ∨ s.pps.resp.pts1 = none →
        exec (.ppsPckResp dir b) s = .next (afterByte t out))
    ∧ (∀ p, s.pps.xor ^^^ b = 0 → s.pps.reqOk = true → s.pps.resp.pts1 = some p →
        (∀ wt, calcWt s.params.diTail s.timing.wi (fiOf s.timing.capFi)
              (diOf s.params.diTail s.timing.capDi) (fiOf (hiNibble p))
              (diOf s.params.diTail (loNibble p)) = .ok wt →
          ∃ r, fidiToRatio s.params.diTail p = .ok r
          ∧ exec (.ppsPckResp dir b) s = .next (afterByte { t with timing :=
              { s.timing with
                opFi := hiNibble p, opDi := loNibble p, wt := wt, fidiRatio := r } }
            (out ++ [.uartSetFidi r, .fidi p r])))
        ∧ (∀ e, calcWt s.params.diTail s.timing.wi (fiOf s.timing.capFi)
              (diOf s.params.diTail s.timing.capDi) (fiOf (hiNibble p))
              (diOf s.params.diTail (loNibble p)) = .err e →
          exec (.ppsPckResp dir b) s = .next (afterByte { t with lastErr := some (.timing e .pps) }
            (out ++ [.error (.timing e .pps)]))))

/-- In `InPts` the half and the position select the byte rule; nothing joins `OBUF`, and where the
exchange has been read in order the byte completes (rule R224). -/
def Obligations.InPtsDispatchesOnThePosition : Prop :=
  ∀ (s : State) (dir : Bool) (b : Byte), s.fault = none → s.top = .inPts → ppsInv s →
    exec (.lineByteInPts dir b) s = exec (ppsRowOf s.pps.phase s.pps.pos dir b) s
    ∧ ∃ t, exec (.lineByteInPts dir b) s = .next t
      ∧ ((t.top = .inPts ∧ t.obuf = s.obuf ∧ t.timing = s.timing)
          ∨ (t.top = .waitApdu ∧ t.obuf = [] ∧ t.pps = .cleared))
      ∧ t.timer = ⟨true, t.timing.wt⟩ ∧ t.params = s.params ∧ t.mode = s.mode
      ∧ t.atrCfg = s.atrCfg ∧ t.rcemuActive = s.rcemuActive ∧ t.status = s.status
      ∧ t.atr = s.atr ∧ t.tpdu = s.tpdu ∧ t.bridge = s.bridge ∧ t.fault = none
      ∧ t.inq = s.inq ∧ t.queryPort = s.queryPort

/-- A negotiation may only narrow: in every state a step reaches from one that meets the invariant, the
operating Fi and Di values are valid and at most the card's declared ones (rules R124, R188). -/
def Obligations.NegotiationNeverExceedsCapability : Prop :=
  ∀ (i : Instr) (s t : State), Inv s → exec i s = .next t →
    fiOf t.timing.opFi ≠ 0 ∧ diOf t.params.diTail t.timing.opDi ≠ 0
    ∧ (fiOf t.timing.opFi).toNat ≤ (fiOf t.timing.capFi).toNat
    ∧ (diOf t.params.diTail t.timing.opDi).toNat ≤ (diOf t.params.diTail t.timing.capDi).toNat

/-! ### Timing -/

/-- `calculate_wt` succeeds exactly under its checks, with truncating division in the source's order and
no wrap-around (rules R124, R126). -/
def Obligations.CalculateWtIsExact : Prop :=
  ∀ (t : DiTail) (wi : Byte) (fi f : Half) (di d : Byte) (v : Word),
    (calcWt t wi fi di f d = .ok v ↔
      wi ≠ 0 ∧ validF fi = true ∧ validF f = true ∧ validD t di = true ∧ validD t d = true
      ∧ f.toNat ≤ fi.toNat ∧ d.toNat ≤ di.toNat
      ∧ v.toNat = wi.toNat * 960 * (fi.toNat / f.toNat) * (di.toNat / d.toNat))
    ∧ (calcWt t wi fi di f d = .ok v → v.toNat ≤ 312120000)

/-- `fidi_to_ratio` divides below Di index 8 and multiplies from it on, without wrap-around; it fails
exactly where a table entry is 0, InvalidF first (rules R125, R126). -/
def Obligations.FidiRatioIsExact : Prop :=
  ∀ (t : DiTail) (x : Byte) (v : Word),
    (fidiToRatio t x = .ok v ↔
      fiOf (hiNibble x) ≠ 0 ∧ diOf t (loNibble x) ≠ 0
      ∧ v.toNat = if (loNibble x).toNat < 8
          then (fiOf (hiNibble x)).toNat / (diOf t (loNibble x)).toNat
          else (fiOf (hiNibble x)).toNat * (diOf t (loNibble x)).toNat)
    ∧ (fidiToRatio t x = .err .invalidF ↔ fiOf (hiNibble x) = 0)
    ∧ (fidiToRatio t x = .err .invalidD ↔ fiOf (hiNibble x) ≠ 0 ∧ diOf t (loNibble x) = 0)

/-- The two tables, place by place (rule R120), and the timing queries, which answer on the query-result
port and change nothing else: validity is a non-zero place in the table, and an invalid WI, then Fi, then
Di, then an excess is the error (rules R89, R122 to R125). The port as a field of the state is the model's
(DESIGN CHOICE, log 2). -/
def Obligations.TimingQueriesAnswer : Prop :=
  ∀ s : State, s.fault = none →
    (∃ t : DiTail, t = s.params.diTail
      ∧ (List.range 16).map (fun k => (fiOf (BitVec.ofNat 4 k)).toNat)
        = [372, 372, 558, 744, 1116, 1488, 1860, 0, 0, 512, 768, 1024, 1536, 2048, 0, 0]
      ∧ (List.range 16).map (fun k => diOf t (BitVec.ofNat 4 k))
        = [0, 1, 2, 4, 8, 16, 32, 64, 12, 20, t.t0, t.t1, t.t2, t.t3, t.t4, t.t5])
    ∧ (∀ f, exec (.funcValidF f) s = .next { s with
        queryPort := some (.bool (decide (f ≠ 0 ∧ ∃ k : Nibble, fiOf k = f))) })
    ∧ (∀ d, exec (.funcValidD d) s = .next { s with
        queryPort := some (.bool (decide (d ≠ 0 ∧ ∃ k : Nibble, diOf s.params.diTail k = d))) })
    ∧ (∀ x, exec (.funcFidiRatio x) s = .next { s with
        queryPort := some (.timing (fidiToRatio s.params.diTail x)) })
    ∧ (∀ wi fi f di d, ∃ r, exec (.funcCalcWt wi fi f di d) s = .next { s with
          queryPort := some (.timing r) }
        ∧ r = calcWt s.params.diTail wi fi di f d
        ∧ (wi = 0 → r = .err .invalidWi)
        ∧ (wi ≠ 0 → validF fi = false ∨ validF f = false → r = .err .invalidF)
        ∧ (wi ≠ 0 → validF fi = true → validF f = true →
            (validD s.params.diTail di = false ∨ validD s.params.diTail d = false →
              r = .err .invalidD)
            ∧ (validD s.params.diTail di = true → validD s.params.diTail d = true →
              fi.toNat < f.toNat ∨ di.toNat < d.toNat → r = .err .protocolViolation)))

/-! ### The TPDU -/

/-- The header bytes INS, P1, P2 are stored, and P3 classifies the header: Case 2 with Le = P3, 0 meaning
256, or Case 3 with Lc = P3 (rules R252 to R255). -/
def Obligations.TpduHeaderIsRead : Prop :=
  ∀ (s : State) (dir : Bool) (b : Byte), s.fault = none → s.top = .inApdu →
    ∃ (c : ApduCtx) (n : Word), c = s.tpdu.ctx ∧ n = s.tpdu.dataLeft
    ∧ (s.tpdu.st = .hdrIns → exec (.tpduIns dir b) s = .next (afterTpduByte s b
        ⟨.hdrP1, n, { c with hdr := { c.hdr with ins := b } }⟩ []))
    ∧ (s.tpdu.st = .hdrP1 → exec (.tpduP1 dir b) s = .next (afterTpduByte s b
        ⟨.hdrP2, n, { c with hdr := { c.hdr with p1 := b } }⟩ []))
    ∧ (s.tpdu.st = .hdrP2 → exec (.tpduP2 dir b) s = .next (afterTpduByte s b
        ⟨.hdrP3, n, { c with hdr := { c.hdr with p2 := b } }⟩ []))
    ∧ (s.tpdu.st = .hdrP3 → exec (.tpduP3 dir b) s = .next (afterTpduByte s b
        ⟨.proc, n,
          match lineDir s.params.lineCase { c.hdr with p3 := b } with
          | .fromCard => { c with
              hdr := { c.hdr with p3 := b }, apduCase := .case2, lc := { c.lc with tot := 0 }
              le := { c.le with tot := if b = 0 then 256 else b.setWidth 32 } }
          | .toCard => { c with
              hdr := { c.hdr with p3 := b }, apduCase := .case3, le := { c.le with tot := 0 }
              lc := { c.lc with tot := b.setWidth 32 } }⟩ []))

/-- The procedure bytes NULL and SW1: NULL changes no register of the TPDU, SW1 is stored and ends the
rounds (rules R257, R258). That NULL is 0x60 and SW1 the rest of 0x6X with 0x9X is decision D25, general
knowledge by rule R256's own mark (PRESUMED, log 17). -/
def Obligations.NullWaitsAndSw1Ends : Prop :=
  ∀ (s : State) (dir : Bool) (lo : Nibble),
    s.fault = none → s.top = .inApdu → s.tpdu.st = .proc →
    exec (.tpduPbNull dir) s = .next (afterTpduByte s 0x60#8 s.tpdu [])
    ∧ (lo ≠ 0 → exec (.tpduPbSw16x dir lo) s = .next (afterTpduByte s (joinNibbles 6#4 lo)
        { s.tpdu with
          st := .sw2, ctx := { s.tpdu.ctx with sw0 := some (joinNibbles 6#4 lo) } } []))
    ∧ exec (.tpduPbSw19x dir lo) s = .next (afterTpduByte s (joinNibbles 9#4 lo)
        { s.tpdu with
          st := .sw2, ctx := { s.tpdu.ctx with sw0 := some (joinNibbles 9#4 lo) } } [])

/-- The acknowledging procedure bytes: INS grants all remaining data, its complement one byte; with
nothing remaining both wait for another procedure byte (rules R259, R260, R264). -/
def Obligations.AcknowledgeGrantsData : Prop :=
  ∀ (s : State) (dir : Bool) (b : Byte) (n : Word),
    s.fault = none → s.top = .inApdu → s.tpdu.st = .proc → ackByte b →
    remaining s.tpdu.ctx = some n →
    (b = s.tpdu.ctx.hdr.ins → exec (.tpduPbAckAll dir b) s = .next (afterTpduByte s b
        (if n = 0 then s.tpdu else { s.tpdu with dataLeft := n, st := .data }) []))
    ∧ (b = ~~~ s.tpdu.ctx.hdr.ins → exec (.tpduPbAckOne dir b) s = .next (afterTpduByte s b
        (if n = 0 then s.tpdu else { s.tpdu with dataLeft := 1, st := .data }) []))

/-- Any other procedure byte is a ProtocolDesyncError, and is then SW1 or NULL as `P_UNEXPECTED_PB` says
(rule R261). -/
def Obligations.UnexpectedProcedureByte : Prop :=
  ∀ (s : State) (dir : Bool) (b : Byte),
    s.fault = none → s.top = .inApdu → s.tpdu.st = .proc → ackByte b →
    b ≠ s.tpdu.ctx.hdr.ins → b ≠ ~~~ s.tpdu.ctx.hdr.ins →
    exec (.tpduPbOther dir b) s = .next (afterTpduByte
      { s with lastErr := some (.protocolDesync b) } b
      (match s.params.unexpectedPb with
        | .asSw1 => { s.tpdu with st := .sw2, ctx := { s.tpdu.ctx with sw0 := some b } }
        | .asNull => s.tpdu)
      [.error (.protocolDesync b)])

/-- A data byte, whatever its value, is stored and counted on its side of the exchange, and the last of
the burst returns to `Proc` (rules R262, R265). -/
def Obligations.TpduDataIsStored : Prop :=
  ∀ (s : State) (dir : Bool) (b : Byte),
    s.fault = none → s.top = .inApdu → s.tpdu.st = .data →
    ∃ (c : ApduCtx) (left : Word) (st : TpduState), c = s.tpdu.ctx
    ∧ left = s.tpdu.dataLeft - 1 ∧ st = (if left = 0 then .proc else .data)
    ∧ (c.apduCase = .case2 → exec (.tpduData dir b) s = .next (afterTpduByte s b
        ⟨st, left, { c with de := c.de ++ [b], le := ⟨c.le.cur + 1, c.le.tot⟩ }⟩ []))
    ∧ (c.apduCase = .case3 ∨ c.apduCase = .case4 →
        exec (.tpduData dir b) s = .next (afterTpduByte s b
          ⟨st, left, { c with dc := c.dc ++ [b], lc := ⟨c.lc.cur + 1, c.lc.tot⟩ }⟩ []))

/-- SW2 completes the TPDU: the context goes out with its status word, and the reassembler waits, cleared,
in `WaitApdu`; `OBUF` is not flushed (rule R263). -/
def Obligations.Sw2CompletesTheTpdu : Prop :=
  ∀ (s : State) (dir : Bool) (b : Byte),
    s.fault = none → s.top = .inApdu → s.tpdu.st = .sw2 →
    exec (.tpduSw2 dir b) s = .next (afterByte { s with
        obuf := appendedObuf s.params.obufSize s.obuf b, top := .waitApdu, tpdu := .cleared }
      (appendedOut s.params.obufSize s.obuf b
        ++ [.tpduDone { s.tpdu.ctx with sw1 := some b }]))

/-- In `InApdu` every byte joins `OBUF` and the sub-state, with the class of a procedure byte, selects
its rule; where the header has been read in order the byte completes (rule R220). -/
def Obligations.InApduDispatchesOnTheSubState : Prop :=
  ∀ (s : State) (dir : Bool) (b : Byte), s.fault = none → s.top = .inApdu → tpduInv s →
    exec (.lineByteInApdu dir b) s
      = exec (tpduRowOf s.tpdu.st s.tpdu.ctx.hdr.ins dir b) s
    ∧ ∃ t, exec (.lineByteInApdu dir b) s = .next t
      ∧ t.obuf = appendedObuf s.params.obufSize s.obuf b
      ∧ (∃ out, t.outq = s.outq ++ appendedOut s.params.obufSize s.obuf b ++ out)
      ∧ (t.top = .inApdu ∨ (t.top = .waitApdu ∧ s.tpdu.st = .sw2))
      ∧ t.timer = ⟨true, t.timing.wt⟩ ∧ t.params = s.params ∧ t.mode = s.mode
      ∧ t.atrCfg = s.atrCfg ∧ t.rcemuActive = s.rcemuActive ∧ t.status = s.status
      ∧ t.timing = s.timing ∧ t.atr = s.atr ∧ t.pps = s.pps ∧ t.bridge = s.bridge
      ∧ t.fault = none ∧ t.inq = s.inq ∧ t.queryPort = s.queryPort

/-- Any number of NULL bytes in a row, run as steps, leaves the TPDU registers as they were (rule R266).
NULL as 0x60 is PRESUMED (log 17). -/
def Obligations.RepeatedNullChangesNoTpduRegister : Prop :=
  ∀ (n : Nat) (s : State) (rest : List RawEvent),
    s.fault = none → s.top = .inApdu → s.tpdu.st = .proc →
    s.inq = List.replicate n ⟨0x10000060, []⟩ ++ rest →
    ∃ t, Host.Core.run Sys2Proof.core n s = .next t
      ∧ t.tpdu = s.tpdu ∧ t.top = s.top ∧ t.inq = rest ∧ t.fault = none
      ∧ t.atr = s.atr ∧ t.pps = s.pps ∧ t.timing = s.timing ∧ t.bridge = s.bridge
      ∧ t.lastErr = s.lastErr

/-- The bytes appended to `OBUF` come out in order and complete: every record it emits is full, and the
records and what is left in the buffer are the bytes put in (rule R232). -/
def Obligations.OutboundBufferLosesNoByte : Prop :=
  ∀ (s : State) (x : List Byte), s.obuf.length < s.params.obufSize →
    ∃ (t : State) (cut : List (List Byte)), t = x.foldl (fun u b => obufAppend b u) s
    ∧ t.outq = s.outq ++ cut.map (fun y => .data y .full)
    ∧ (∀ y ∈ cut, y.length = s.params.obufSize)
    ∧ cut.flatten ++ t.obuf = s.obuf ++ x
    ∧ t.obuf.length < s.params.obufSize

/-! ### The WT timer -/

/-- A WT expiry with the timer not armed is dropped (rule R225). -/
def Obligations.LateExpiryIsDropped : Prop :=
  ∀ s : State, s.timer.armed = false →
    exec .wtExpiry s = .next s ∧ exec .wtExpiryWaitAtr s = .next s
    ∧ exec .wtExpiryInAtr s = .next s ∧ exec .wtExpiryWaitApdu s = .next s
    ∧ exec .wtExpiryInApdu s = .next s ∧ exec .wtExpiryInPts s = .next s

/-- An admitted WT expiry disarms the timer and does what the phase says: nothing more in `WaitAtr`;
nothing or `WaitAtr` entry in `InAtr`; a flush in `WaitApdu`; a flush and the end of the TPDU or of
the PPS exchange in `InApdu` and `InPts` (rules R225 to R230). -/
def Obligations.AdmittedExpiryActsByPhase : Prop :=
  ∀ s : State, s.fault = none → s.timer.armed = true →
    ∃ u : State, u = { s with timer := { s.timer with armed := false } }
    ∧ (s.top = .waitAtr → exec .wtExpiry s = .next u ∧ exec .wtExpiryWaitAtr s = .next u)
    ∧ (s.top = .inAtr → s.params.wtInAtr = .ignore →
        exec .wtExpiry s = .next u ∧ exec .wtExpiryInAtr s = .next u)
    ∧ (s.top = .inAtr → s.params.wtInAtr = .abortToWaitAtr →
        exec .wtExpiry s = .next { inWaitAtr u with outq := s.outq ++ waitAtrOut u }
        ∧ exec .wtExpiryInAtr s = .next { inWaitAtr u with outq := s.outq ++ waitAtrOut u })
    ∧ (s.top = .waitApdu →
        exec .wtExpiry s = .next { u with
          obuf := [], outq := s.outq ++ flushed .wtExpiry s.obuf }
        ∧ exec .wtExpiryWaitApdu s = exec .wtExpiry s)
    ∧ (s.top = .inApdu →
        exec .wtExpiry s = .next { u with
          obuf := [], outq := s.outq ++ flushed .wtExpiry s.obuf
          top := .waitApdu, tpdu := .cleared }
        ∧ exec .wtExpiryInApdu s = exec .wtExpiry s)
    ∧ (s.top = .inPts →
        exec .wtExpiry s = .next { u with
          obuf := [], outq := s.outq ++ flushed .wtExpiry s.obuf
          top := .waitApdu, pps := .cleared }
        ∧ exec .wtExpiryInPts s = exec .wtExpiry s)

/-! ### Signals -/

/-- RESET asserted, or VCC absent: from any phase but `Reset` the slot enters it, the change reported
first; in `Reset` only the levels are recorded and reported (rules R212, R215, R217, R235). -/
def Obligations.ResetAssertionAndVccLossEnterReset : Prop :=
  ∀ (s : State) (clk vcc : Bool), s.fault = none →
    ∃ f g : Flags, f = withLevels s.status true vcc clk ∧ g = withLevels s.status false false clk
    ∧ (s.top ≠ .reset →
        exec (.signalRstAssert clk vcc) s = .next { inReset s with
          status := f, outq := s.outq ++ [.change f] ++ resetOut s }
        ∧ exec (.signalVccOff clk) s = .next { inReset s with
          status := g, outq := s.outq ++ [.change g] ++ resetOut s })
    ∧ (s.top = .reset →
        exec (.signalRstAssert clk vcc) s = .next { s with
          status := f, outq := s.outq ++ [.change f] }
        ∧ exec (.signalVccOff clk) s = .next { s with
          status := g, outq := s.outq ++ [.change g] })

/-- RESET released with VCC present leaves `Reset` for `WaitAtr` if RESET was active, and an emulated
card sends its ATR; otherwise only the levels are recorded (rules R161, R213, R216, R235). -/
def Obligations.ResetReleaseEntersWaitAtr : Prop :=
  ∀ (s : State) (clk : Bool), s.fault = none →
    ∃ f : Flags, f = withLevels s.status false true clk
    ∧ (resetActive s.status = true → s.top = .reset →
        exec (.signalRstRelease clk) s = .next { inWaitAtr s with
          status := f, outq := s.outq ++ [.change f] ++ waitAtrOut s })
    ∧ (resetActive s.status = false ∨ s.top ≠ .reset →
        exec (.signalRstRelease clk) s = .next { s with
          status := f, outq := s.outq ++ [.change f] }
        ∧ exec (.signalClk clk true false) s = .next { s with
          status := f, outq := s.outq ++ [.change f] })

/-- Every signal event completes: the three levels are recorded, the other two flags kept, `Change`
leaves first, and a signal is never an error (rules R214, R235, R372). -/
def Obligations.SignalIsRecordedAndNeverAnError : Prop :=
  ∀ (s : State) (clk vcc rst : Bool), s.fault = none →
    ∃ t, exec (.signal clk vcc rst) s = .next t ∧ exec (.signalClk clk vcc rst) s = .next t
    ∧ resetActive t.status = rst ∧ vccPresent t.status = vcc ∧ clkActive t.status = clk
    ∧ cardInserted t.status = cardInserted s.status ∧ rcemuFlag t.status = rcemuFlag s.status
    ∧ t.fault = none ∧ t.lastErr = s.lastErr ∧ t.bridge = s.bridge ∧ t.atrCfg = s.atrCfg
    ∧ t.mode = s.mode ∧ t.params = s.params
    ∧ ∃ out, t.outq = s.outq ++ .change t.status :: out ∧ ∀ e, .error e ∉ out

/-- `CARD_INSERT` sets its flag, reports the flags, and touches no phase, timer or sub-machine (rule
R219). -/
def Obligations.CardInsertIsRecordedOnly : Prop :=
  ∀ (s : State) (ins : Bool), s.fault = none →
    ∃ f : Flags, exec (.cardInsert ins) s = .next { s with
      status := f, outq := s.outq ++ [.change f] }
    ∧ cardInserted f = ins ∧ resetActive f = resetActive s.status
    ∧ vccPresent f = vccPresent s.status ∧ clkActive f = clkActive s.status
    ∧ rcemuFlag f = rcemuFlag s.status

/-! ### The case discriminator and the bridge -/

/-- The case discriminator's rows for a segment of `n` bytes, answered on the query-result port (rules
R290, R291, R292). The trailing Le of Case 4 and the extended Le of 0 meaning 65536 are general knowledge
by the spec's own marks (PRESUMED, log 17); the port as a field of the state is the model's (DESIGN CHOICE,
log 2). -/
def Obligations.SegmentIsClassifiedByItsLength : Prop :=
  ∀ (s : State) (seg : List Byte), s.fault = none →
    ∃ (r : CaseResult) (n p3 lc : Nat),
    exec (.funcClassifyCase seg) s = .next { s with queryPort := some (.apduCase r) }
    ∧ n = seg.length ∧ p3 = (seg.getD 4 0#8).toNat
    ∧ lc = (seg.getD 5 0#8).toNat * 256 + (seg.getD 6 0#8).toNat
    ∧ (n < 4 → r = .malformed .tooShort)
    ∧ (n = 4 → r = .case ⟨.case1, 0, 0, false, 4, 0⟩)
    ∧ (n = 5 → r = .case ⟨.case2, 0, if p3 = 0 then 256 else p3, false, 5, 0⟩)
    ∧ (n = 6 → r = .case ⟨.case3, p3, 0, false, 5, min 1 p3⟩)
    ∧ (7 ≤ n → p3 ≠ 0 →
        (n ≤ 5 + p3 → r = .case ⟨.case3, p3, 0, false, 5, n - 5⟩)
        ∧ (n = 6 + p3 → r = .case ⟨.case4, p3,
            if (seg.getD (n - 1) 0#8).toNat = 0 then 256 else (seg.getD (n - 1) 0#8).toNat,
            false, 5, p3⟩)
        ∧ (6 + p3 < n → r = .malformed .lengthMismatch))
    ∧ (n = 7 → p3 = 0 → r = .case ⟨.case2, 0, if lc = 0 then 65536 else lc, true, 7, 0⟩)
    ∧ (8 ≤ n → p3 = 0 →
        (lc = 0 → r = .malformed .zeroLc)
        ∧ (lc ≠ 0 → n ≤ 7 + lc → r = .case ⟨.case3, lc, 0, true, 7, n - 7⟩)
        ∧ (lc ≠ 0 → n = 9 + lc → r = .case ⟨.case4, lc,
            if (seg.getD (n - 2) 0#8).toNat * 256 + (seg.getD (n - 1) 0#8).toNat = 0 then 65536
            else (seg.getD (n - 2) 0#8).toNat * 256 + (seg.getD (n - 1) 0#8).toNat,
            true, 7, lc⟩)
        ∧ (lc ≠ 0 → n = 8 + lc ∨ 9 + lc < n → r = .malformed .lengthMismatch))

/-- The other queries: the procedure-byte class, the first match in the rule's order; the parse result;
and the built bytes of a tagged structure, or IllFormed (rules R89, R90, R154, R156, R256). NULL as 0x60 is
PRESUMED (log 17); the port as a field of the state is the model's (DESIGN CHOICE, log 2). -/
def Obligations.ByteQueriesAnswer : Prop :=
  ∀ s : State, s.fault = none →
    (∀ ins b, ∃ c, exec (.funcClassifyPb ins b) s = .next { s with
        queryPort := some (.pbClass c) }
      ∧ (c = .null ↔ b = 0x60#8)
      ∧ (c = .sw1 ↔ b ≠ 0x60#8 ∧ (hiNibble b = 6#4 ∨ hiNibble b = 9#4))
      ∧ (c = .ackAll ↔ ackByte b ∧ b = ins)
      ∧ (c = .ackOne ↔ ackByte b ∧ b = ~~~ ins)
      ∧ (c = .other ↔ ackByte b ∧ b ≠ ins ∧ b ≠ ~~~ ins))
    ∧ (∀ x, exec (.funcAtrParse x) s = .next { s with
        queryPort := some (.parse (atrParse s.params x)) })
    ∧ (∀ x, taggedAtr x = none → exec (.funcAtrBuild x) s = .next { s with
        queryPort := some (.build .illFormed) })
    ∧ (∀ x a, taggedAtr x = some a →
        (atrWf s.params.atrMax a = true → exec (.funcAtrBuild x) s = .next { s with
          queryPort := some (.build (.bytes
            ([a.ts, a.t0] ++ a.ifb.map IfByte.value ++ a.hist ++ a.tck.toList))) })
        ∧ (atrWf s.params.atrMax a = false → exec (.funcAtrBuild x) s = .next { s with
          queryPort := some (.build .illFormed) }))

/-- A new command segment: a short one is a TransportError, another malformed one stops the bridge, and
a classified one replaces the context and asks for the missing data or forwards the command (rules
R293, R295, R299). -/
def Obligations.NewSegmentStartsTheApdu : Prop :=
  ∀ (s : State) (seg : List Byte), s.fault = none → s.bridge.fatal = false →
    (classifyCase seg = .malformed .tooShort →
      exec (.apduSegNew seg) s = .next (afterError s (.transport .tooShort)))
    ∧ (classifyCase seg = .malformed .lengthMismatch →
      exec (.apduSegNew seg) s = .next { afterError s (.fatalBridge .lengthMismatch) with
        bridge := { s.bridge with fatal := true } })
    ∧ (classifyCase seg = .malformed .zeroLc →
      exec (.apduSegNew seg) s = .next { afterError s (.fatalBridge .zeroLc) with
        bridge := { s.bridge with fatal := true } })
    ∧ (∀ r, classifyCase seg = .case r →
      ∃ (n : Nat) (c : ApduCtx), n = min r.avail r.lcTot
      ∧ c = ⟨⟨seg.getD 0 0#8, seg.getD 1 0#8, seg.getD 2 0#8, seg.getD 3 0#8, seg.getD 4 0#8⟩, r.c,
          ⟨BitVec.ofNat 32 n, BitVec.ofNat 32 r.lcTot⟩, ⟨0, BitVec.ofNat 32 r.leTot⟩,
          (seg.drop r.off).take n, [], none, none⟩
      ∧ (n < r.lcTot → exec (.apduSegNew seg) s = .next (afterBridge s
          ⟨c, true, false, r.ext, false, s.bridge.prevStatus⟩
          [.rxMore (BitVec.ofNat 32 (r.lcTot - n))]))
      ∧ (n = r.lcTot → ∃ x, capdu c r.ext = some x
        ∧ exec (.apduSegNew seg) s = .next (afterBridge s
          ⟨c, true, true, r.ext, false, s.bridge.prevStatus⟩ [.txToCard x])))

/-- A continuation segment: when data is owed it is appended up to what is owed, and the bridge asks for
the rest or forwards the command; when none is owed the bridge stops (rules R294, R295, R299). -/
def Obligations.ContinuationSegmentAddsData : Prop :=
  ∀ (s : State) (seg : List Byte), s.fault = none → s.bridge.fatal = false →
    ∃ (c : ApduCtx) (owed n : Nat), c = s.bridge.ctx
    ∧ owed = c.lc.tot.toNat - c.lc.cur.toNat ∧ n = min seg.length owed
    ∧ (s.bridge.valid = false ∨ s.bridge.forwarded = true ∨ owed = 0 →
      exec (.apduSegCont seg) s = .next { afterError s (.fatalBridge .noDataOwed) with
        bridge := { s.bridge with fatal := true } })
    ∧ (s.bridge.valid = true → s.bridge.forwarded = false → n < owed →
      exec (.apduSegCont seg) s = .next (afterBridge s { s.bridge with
          ctx := { c with
            dc := c.dc ++ seg.take n
            lc := ⟨BitVec.ofNat 32 (c.lc.cur.toNat + n), c.lc.tot⟩ } }
        [.rxMore (BitVec.ofNat 32 (owed - n))]))
    ∧ (s.bridge.valid = true → s.bridge.forwarded = false → owed ≠ 0 → n = owed →
      c.apduCase ≠ .unclassified →
      ∃ x, capdu { c with dc := c.dc ++ seg.take n, lc := ⟨c.lc.tot, c.lc.tot⟩ } s.bridge.ext
          = some x
        ∧ exec (.apduSegCont seg) s = .next (afterBridge s { s.bridge with
            forwarded := true
            ctx := { c with dc := c.dc ++ seg.take n, lc := ⟨c.lc.tot, c.lc.tot⟩ } }
          [.txToCard x]))

/-- The real card's answer: too short or unexpected is a TransportError; else the data up to Le and the
status word are stored and the APDU completes (rules R295, R297). -/
def Obligations.CardAnswerCompletesTheApdu : Prop :=
  ∀ (s : State) (r : List Byte), s.fault = none → s.bridge.fatal = false →
    (r.length < 2 → exec (.cardResp r) s = .next (afterError s (.transport .tooShort)))
    ∧ (2 ≤ r.length →
      s.bridge.valid = false ∨ s.bridge.forwarded = false ∨ s.bridge.ctx.sw0 ≠ none →
      exec (.cardResp r) s = .next (afterError s (.transport .unexpectedResponse)))
    ∧ (∀ (x : List Byte) (sw1 sw2 : Byte), r = x ++ [sw1, sw2] → s.bridge.valid = true →
      s.bridge.forwarded = true → s.bridge.ctx.sw0 = none →
      s.bridge.ctx.lc.tot.toNat ≤ s.bridge.ctx.lc.cur.toNat →
      ∃ n, n = min x.length s.bridge.ctx.le.tot.toNat
      ∧ exec (.cardResp r) s = .next (afterBridge s { s.bridge with
          ctx := { s.bridge.ctx with
            de := x.take n, le := { s.bridge.ctx.le with cur := BitVec.ofNat 32 n }
            sw0 := some sw1, sw1 := some sw2 } }
        [.complete sw1 sw2 (x.take n)]))

/-- A status report triggers a cold reset of the real card when VCC has come up without RESET, else a
warm one when RESET has ended, and is remembered (rule R298). -/
def Obligations.StatusReportTriggersCardReset : Prop :=
  ∀ (s : State) (f : Flags), s.fault = none → s.bridge.fatal = false →
    ∃ (cold warm : Bool) (b : Bridge),
    cold = (vccPresent f && !vccPresent s.bridge.prevStatus && !resetActive f)
    ∧ warm = (resetActive s.bridge.prevStatus && !resetActive f)
    ∧ b = { s.bridge with prevStatus := f }
    ∧ exec (.statusIn f) s = .next (afterBridge s b
      (if cold = true then [.cardReset .cold] else if warm = true then [.cardReset .warm] else []))

/-- A stopped bridge takes no step on a bridge event, and nothing starts it again (rules R299, R339). That
the event is consumed is the model's reading (log 6). -/
def Obligations.StoppedBridgeStaysStopped : Prop :=
  ∀ (i : Instr) (s : State), s.bridge.fatal = true →
    (ofBridge i = true → exec i s = .next s)
    ∧ (∀ t, exec i s = .next t → t.bridge = s.bridge)

/-- The command APDU handed to the real card is the segments put together, for every first segment and
every continuation that bring exactly the announced data, but for the six-byte row with P3 = 0 (rules
R290, R293, R294, R296). The trailing Le of Case 4 is PRESUMED (log 17). -/
def Obligations.ForwardedCommandIsTheSegments : Prop :=
  ∀ (seg : List Byte) (r : CaseInfo) (parts : List (List Byte)),
    classifyCase seg = .case r → ¬ (seg.length = 6 ∧ seg.getD 4 0#8 = 0) →
    parts.flatten.length = r.lcTot - min r.avail r.lcTot →
    capdu (parts.foldl (fun c x => contCtx x c) (newCtx seg r)) r.ext = some (seg ++ parts.flatten)

/-- The line side never reads or writes the bridge registers: another bridge gives the same event the
same effect, and the bridge is left as it was (rules R32, R299). -/
def Obligations.LineSideIgnoresTheBridge : Prop :=
  ∀ (i : Instr) (s t : State) (b : Bridge), ofBridge i = false → exec i s = .next t →
    t.bridge = s.bridge ∧ exec i { s with bridge := b } = .next { t with bridge := b }

/-- The bridge never reads or writes the line-side registers: what it does, emits and reports depends on
its own registers and the fault register only (rules R32, R298, R299). -/
def Obligations.BridgeIgnoresTheLineSide : Prop :=
  ∀ (i : Instr) (s t : State), ofBridge i = true → exec i s = .next t →
    ∃ (b : Bridge) (out : List Record) (e : Option ErrInfo), ∀ u : State,
      u.bridge = s.bridge → u.fault = s.fault →
      exec i u = .next { u with
        bridge := b, outq := u.outq ++ out
        lastErr := match e with
          | none => u.lastErr
          | some x => some x }

/-! ### Slots and the wire boundary -/

/-- A step of one slot is that slot's step, and leaves every other slot as it was (rules R3, R344). -/
def Obligations.SlotsShareNothing : Prop :=
  ∀ (k : Nat) (slots : List State) (s t : State), slots[k]? = some s → step s = .next t →
    ∃ slots', slotStep k slots = .next slots' ∧ slots'.length = slots.length
    ∧ slots'[k]? = some t ∧ ∀ j, j ≠ k → slots'[j]? = slots[j]?

/-- The wire boundary (rules R70, R300 to R303, R344), for every payload codec that reads back what it
writes. A stream of accepted messages is cut at its message boundaries, in order, however the bytes are cut
into reads, and leaves nothing in the receive buffer; the receiver waits exactly while it has less than a
header or less than the header's length; a length below the header size discards the whole buffer; a
rejected message is a TransportError and the receiver goes on behind it. What a message brings, and an
error, reaches the slot `slot_nr` names and no other. Every record but those to local collaborators has one
message, which reads back as its kind and content, and the message of an event brings that event. The
model's own are: which slot reports a bad length, that a faulted slot records no error and when an error is
recorded (logs 20, 25), the kind of `CARD_RESP` (log 22), the codec (log 23), and that codes and flag
places are told apart, which reading a kind or flags back takes (`WireParams.wf`, log 16). -/
def Obligations.ReceiverCutsMessages : Prop :=
  ∀ (w : WireParams) (c : WireCodec w) (r : Receiver),
    (∀ (ms : List (WireType × WireMsg)) (reads : List (List Byte)), r.rb = [] →
      (∀ m ∈ ms, headerSize w + m.2.payload.length ≤ maxMsgLen w
        ∧ checkMsg w m.2 = .accepted m.1) →
      reads.flatten = (ms.map fun m => msgBytes w m.2).flatten →
      reads.foldl (fun r x => receive w c x r) r
        = { r with
            accepted := r.accepted ++ ms
            slots := ms.foldl (fun ss m => acceptMsg w c r.dir m.1 m.2 ss) r.slots })
    ∧ (rxTurn w c r = none ↔
        r.rb.length < headerSize w
          ∨ headerSize w ≤ msgLen w r.rb ∧ r.rb.length < msgLen w r.rb)
    ∧ (headerSize w ≤ r.rb.length → msgLen w r.rb < headerSize w →
      rxTurn w c r
        = some { r with rb := [], slots := reportTo (r.rb.getD 2 0#8) .badMsgLen r.slots })
    ∧ (∀ (m : WireMsg) (rest : List Byte) (e : TransportErr), r.rb = msgBytes w m ++ rest →
      headerSize w + m.payload.length ≤ maxMsgLen w → checkMsg w m = .rejected e →
      rxTurn w c r = some { r with rb := rest, slots := reportTo m.slot e r.slots })
    ∧ (∀ (kind : WireType) (m : WireMsg) (slots : List State) (k : Nat),
      (acceptMsg w c r.dir kind m slots)[k]? = (slots[k]?).map fun s =>
        if k = m.slot.toNat then
          { s with inq := s.inq ++ (msgEvent w c r.dir kind m.payload).toList.map encode }
        else s)
    ∧ (∀ (nr : Byte) (e : TransportErr) (slots : List State) (k : Nat),
      (reportTo nr e slots)[k]? = (slots[k]?).map fun s =>
        if k = nr.toNat ∧ s.fault = none then afterError s (.transport e) else s)
    ∧ (∀ (m : Mode) (nr : Byte) (x : Record),
      (recordMsg w c m nr x = none ↔
        (∃ y, x = .txToCard y) ∨ (∃ k, x = .cardReset k) ∨ (∃ rx tx, x = .uartEnable rx tx)
          ∨ (∃ n, x = .uartSetFidi n) ∨ (∃ b, x = .sendByte b) ∨ (∃ n, x = .timerSetWtime n)
          ∨ x = .timerArm ∨ x = .timerDisarm)
      ∧ ∀ msg, recordMsg w c m nr x = some msg →
        msg.slot = nr ∧ ∃ kind, recordKind m x = some kind
        ∧ c.dec kind msg.payload = recordContent w x ∧ (w.wf → kindOf w msg = some kind))
    ∧ (∀ (i : Instr) (kind : WireType) (x : WireContent), w.wf → i.wf →
      eventKind i = some kind → eventContent w i = some x →
      msgEvent w c (wireDir kind) kind (c.enc kind x) = some i)
end

