-- ==== Sys2Proof/Laws/Codec.lean ====
section
/-! SUPPORT. There are payload codecs: message contents are countable, so a codec can write a content as
any payload that tells its number. -/

namespace Sys2Proof.Machine

/-- Error causes are told apart by numbers. -/
theorem errInfo_countable : Countable ErrInfo := by
  let tag : ErrInfo → Nat × List Nat
    | .timing e stage => (0, [e.ctorIdx, stage.ctorIdx])
    | .framing b pe oe fe => (1, [b.toNat, pe.toNat, oe.toNat, fe.toNat])
    | .protocolDesync b => (2, [b.toNat])
    | .transport e => (3, [e.ctorIdx])
    | .fatalBridge e => (4, [e.ctorIdx])
    | .pckMismatch phase => (5, [phase.ctorIdx])
  refine Function.Injective.countable (f := tag) ?_
  have bits : ∀ x y : Bool, x.toNat = y.toNat → x = y := by decide
  have timing : ∀ x y : TimingErr, x.ctorIdx = y.ctorIdx → x = y := by
    intro x y; cases x <;> cases y <;> decide
  have stages : ∀ x y : TimingStage, x.ctorIdx = y.ctorIdx → x = y := by
    intro x y; cases x <;> cases y <;> decide
  have transport : ∀ x y : TransportErr, x.ctorIdx = y.ctorIdx → x = y := by
    intro x y; cases x <;> cases y <;> decide
  have fatal : ∀ x y : BridgeErr, x.ctorIdx = y.ctorIdx → x = y := by
    intro x y; cases x <;> cases y <;> decide
  have halves : ∀ x y : PpsPhase, x.ctorIdx = y.ctorIdx → x = y := by
    intro x y; cases x <;> cases y <;> decide
  intro a b h
  cases a <;> cases b <;> simp [tag] at h
  · exact congrArg₂ _ (timing _ _ h.1) (stages _ _ h.2)
  · rw [BitVec.toNat_inj] at h; obtain ⟨rfl, h1, h2, h3⟩ := h
    rw [bits _ _ h1, bits _ _ h2, bits _ _ h3]
  · rw [BitVec.toNat_inj] at h; rw [h]
  · exact congrArg _ (transport _ _ h)
  · exact congrArg _ (fatal _ _ h)
  · exact congrArg _ (halves _ _ h)

/-- So are message contents. -/
theorem wireContent_countable : Countable WireContent := by
  have := errInfo_countable
  let tag : WireContent → (Nat × Nat) × (List Nat × List Nat) × List Nat × Option ErrInfo
    | .status v => ((0, v), ([], []), [], none)
    | .fidi b r => ((1, b.toNat), ([r.toNat], []), [], none)
    | .atr n x => ((2, n), (x.map BitVec.toNat, []), [], none)
    | .pps x y => ((3, 0), (x.map BitVec.toNat, y.map BitVec.toNat), [], none)
    | .data reason x => ((4, reason.ctorIdx), (x.map BitVec.toNat, []), [], none)
    | .tpdu h c x y s t => ((5, c.ctorIdx), (x.map BitVec.toNat, y.map BitVec.toNat),
        [h.cla.toNat, h.ins.toNat, h.p1.toNat, h.p2.toNat, h.p3.toNat,
          (s.map BitVec.toNat).getD 256, (t.map BitVec.toNat).getD 256], none)
    | .error n e => ((6, n), ([], []), [], some e)
    | .segment new x => ((7, new.toNat), (x.map BitVec.toNat, []), [], none)
    | .request n => ((8, n.toNat), ([], []), [], none)
    | .answered s t x => ((9, 0), ([s.toNat, t.toNat], x.map BitVec.toNat), [], none)
    | .atrSet x => ((10, 0), (x.map BitVec.toNat, []), [], none)
    | .inserted ins => ((11, ins.toNat), ([], []), [], none)
    | .cardAnswer x => ((12, 0), (x.map BitVec.toNat, []), [], none)
  refine Function.Injective.countable (f := tag) ?_
  have bits : ∀ x y : Bool, x.toNat = y.toNat → x = y := by decide
  have reasons : ∀ x y : FlushReason, x.ctorIdx = y.ctorIdx → x = y := by
    intro x y; cases x <;> cases y <;> decide
  have apduCases : ∀ x y : ApduCase, x.ctorIdx = y.ctorIdx → x = y := by
    intro x y; cases x <;> cases y <;> decide
  have bytes : ∀ x y : List Byte, x.map BitVec.toNat = y.map BitVec.toNat → x = y :=
    fun x y h => (List.map_injective_iff.mpr fun _ _ => BitVec.eq_of_toNat_eq) h
  have optional : ∀ x y : Option Byte, (x.map BitVec.toNat).getD 256 = (y.map BitVec.toNat).getD 256 → x = y := by
    intro x y h
    cases x with
    | none => cases y with
      | none => rfl
      | some y => have := y.isLt; simp at h; omega
    | some x => cases y with
      | none => have := x.isLt; simp at h; omega
      | some y => simpa [BitVec.toNat_inj] using h
  have header : ∀ x y : Header, x.cla = y.cla → x.ins = y.ins → x.p1 = y.p1 → x.p2 = y.p2 → x.p3 = y.p3 →
      x = y := by
    rintro ⟨_, _, _, _, _⟩ ⟨_, _, _, _, _⟩ rfl rfl rfl rfl rfl
    rfl
  intro a b h
  cases a <;> cases b <;>
    simp only [tag, Prod.mk.injEq, List.cons.injEq, BitVec.toNat_inj, Option.some.injEq, true_and, and_true,
      false_and, reduceCtorEq, Nat.reduceEqDiff, Nat.zero_ne_one, Nat.one_ne_zero, OfNat.ofNat_ne_zero,
      OfNat.zero_ne_ofNat, OfNat.ofNat_ne_one, OfNat.one_ne_ofNat] at h
  · rw [h]
  · rw [h.1, h.2]
  · rw [h.1, bytes _ _ h.2]
  · rw [bytes _ _ h.1, bytes _ _ h.2]
  · rw [reasons _ _ h.1, bytes _ _ h.2]
  · obtain ⟨h1, ⟨h2, h3⟩, h4, h5, h6, h7, h8, h9, h10⟩ := h
    rw [apduCases _ _ h1, bytes _ _ h2, bytes _ _ h3, header _ _ h4 h5 h6 h7 h8, optional _ _ h9,
      optional _ _ h10]
  · rw [h.1, h.2]
  · rw [bits _ _ h.1, bytes _ _ h.2]
  · rw [h]
  · rw [h.1.1, h.1.2, bytes _ _ h.2]
  · rw [bytes _ _ h]
  · rw [bits _ _ h]
  · rw [bytes _ _ h]

/-- There is a codec: it writes as many bytes as a numbering of the contents says. -/
theorem wireCodec_exists (w : WireParams) : Nonempty (WireCodec w) := by
  have := wireContent_countable
  obtain ⟨number, distinct⟩ := Countable.exists_injective_nat WireContent
  have back : ∀ x, Function.partialInv number (List.replicate (number x) 0#8).length = some x := by
    intro x
    rw [List.length_replicate]
    exact Function.partialInv_left distinct x
  exact ⟨⟨fun _ x => List.replicate (number x) 0#8, fun _ y => Function.partialInv number y.length,
    fun _ _ _ x _ _ => back x, fun _ _ x _ _ _ => back x⟩⟩

end Sys2Proof.Machine
end

