-- ==== Sys2Proof/Laws/State.lean ====
section
/-! SUPPORT. One lemma for each field of the state and each update: what the field is afterwards. -/

namespace Sys2Proof.Machine

variable (s : State)

/-! ### `emit` -/

@[simp] theorem emit_params (r : Record) : (emit r s).params = s.params := rfl
@[simp] theorem emit_mode (r : Record) : (emit r s).mode = s.mode := rfl
@[simp] theorem emit_atrCfg (r : Record) : (emit r s).atrCfg = s.atrCfg := rfl
@[simp] theorem emit_rcemuActive (r : Record) : (emit r s).rcemuActive = s.rcemuActive := rfl
@[simp] theorem emit_status (r : Record) : (emit r s).status = s.status := rfl
@[simp] theorem emit_top (r : Record) : (emit r s).top = s.top := rfl
@[simp] theorem emit_timing (r : Record) : (emit r s).timing = s.timing := rfl
@[simp] theorem emit_timer (r : Record) : (emit r s).timer = s.timer := rfl
@[simp] theorem emit_atr (r : Record) : (emit r s).atr = s.atr := rfl
@[simp] theorem emit_pps (r : Record) : (emit r s).pps = s.pps := rfl
@[simp] theorem emit_obuf (r : Record) : (emit r s).obuf = s.obuf := rfl
@[simp] theorem emit_tpdu (r : Record) : (emit r s).tpdu = s.tpdu := rfl
@[simp] theorem emit_bridge (r : Record) : (emit r s).bridge = s.bridge := rfl
@[simp] theorem emit_lastErr (r : Record) : (emit r s).lastErr = s.lastErr := rfl
@[simp] theorem emit_fault (r : Record) : (emit r s).fault = s.fault := rfl
@[simp] theorem emit_outq (r : Record) : (emit r s).outq = s.outq ++ [r] := rfl
@[simp] theorem emit_inq (r : Record) : (emit r s).inq = s.inq := rfl
@[simp] theorem emit_queryPort (r : Record) : (emit r s).queryPort = s.queryPort := rfl

/-! ### `raise` -/

@[simp] theorem raise_params (e : ErrInfo) : (raise e s).params = s.params := rfl
@[simp] theorem raise_mode (e : ErrInfo) : (raise e s).mode = s.mode := rfl
@[simp] theorem raise_atrCfg (e : ErrInfo) : (raise e s).atrCfg = s.atrCfg := rfl
@[simp] theorem raise_rcemuActive (e : ErrInfo) : (raise e s).rcemuActive = s.rcemuActive := rfl
@[simp] theorem raise_status (e : ErrInfo) : (raise e s).status = s.status := rfl
@[simp] theorem raise_top (e : ErrInfo) : (raise e s).top = s.top := rfl
@[simp] theorem raise_timing (e : ErrInfo) : (raise e s).timing = s.timing := rfl
@[simp] theorem raise_timer (e : ErrInfo) : (raise e s).timer = s.timer := rfl
@[simp] theorem raise_atr (e : ErrInfo) : (raise e s).atr = s.atr := rfl
@[simp] theorem raise_pps (e : ErrInfo) : (raise e s).pps = s.pps := rfl
@[simp] theorem raise_obuf (e : ErrInfo) : (raise e s).obuf = s.obuf := rfl
@[simp] theorem raise_tpdu (e : ErrInfo) : (raise e s).tpdu = s.tpdu := rfl
@[simp] theorem raise_bridge (e : ErrInfo) : (raise e s).bridge = s.bridge := rfl
@[simp] theorem raise_lastErr (e : ErrInfo) : (raise e s).lastErr = some e := rfl
@[simp] theorem raise_fault (e : ErrInfo) : (raise e s).fault = s.fault := rfl
@[simp] theorem raise_outq (e : ErrInfo) : (raise e s).outq = s.outq ++ [.error e] := rfl
@[simp] theorem raise_inq (e : ErrInfo) : (raise e s).inq = s.inq := rfl
@[simp] theorem raise_queryPort (e : ErrInfo) : (raise e s).queryPort = s.queryPort := rfl

/-! ### `enterFault` -/

@[simp] theorem enterFault_params (f : ModelFault) : (enterFault f s).params = s.params := rfl
@[simp] theorem enterFault_mode (f : ModelFault) : (enterFault f s).mode = s.mode := rfl
@[simp] theorem enterFault_atrCfg (f : ModelFault) : (enterFault f s).atrCfg = s.atrCfg := rfl
@[simp] theorem enterFault_rcemuActive (f : ModelFault) :
    (enterFault f s).rcemuActive = s.rcemuActive := rfl
@[simp] theorem enterFault_status (f : ModelFault) : (enterFault f s).status = s.status := rfl
@[simp] theorem enterFault_top (f : ModelFault) : (enterFault f s).top = s.top := rfl
@[simp] theorem enterFault_timing (f : ModelFault) : (enterFault f s).timing = s.timing := rfl
@[simp] theorem enterFault_timer (f : ModelFault) : (enterFault f s).timer = s.timer := rfl
@[simp] theorem enterFault_atr (f : ModelFault) : (enterFault f s).atr = s.atr := rfl
@[simp] theorem enterFault_pps (f : ModelFault) : (enterFault f s).pps = s.pps := rfl
@[simp] theorem enterFault_obuf (f : ModelFault) : (enterFault f s).obuf = s.obuf := rfl
@[simp] theorem enterFault_tpdu (f : ModelFault) : (enterFault f s).tpdu = s.tpdu := rfl
@[simp] theorem enterFault_bridge (f : ModelFault) : (enterFault f s).bridge = s.bridge := rfl
@[simp] theorem enterFault_lastErr (f : ModelFault) : (enterFault f s).lastErr = s.lastErr := rfl
@[simp] theorem enterFault_fault (f : ModelFault) : (enterFault f s).fault = some f := rfl
@[simp] theorem enterFault_outq (f : ModelFault) : (enterFault f s).outq = s.outq := rfl
@[simp] theorem enterFault_inq (f : ModelFault) : (enterFault f s).inq = s.inq := rfl
@[simp] theorem enterFault_queryPort (f : ModelFault) :
    (enterFault f s).queryPort = s.queryPort := rfl

/-! ### `rearm` -/

@[simp] theorem rearm_params : (rearm s).params = s.params := rfl
@[simp] theorem rearm_mode : (rearm s).mode = s.mode := rfl
@[simp] theorem rearm_atrCfg : (rearm s).atrCfg = s.atrCfg := rfl
@[simp] theorem rearm_rcemuActive : (rearm s).rcemuActive = s.rcemuActive := rfl
@[simp] theorem rearm_status : (rearm s).status = s.status := rfl
@[simp] theorem rearm_top : (rearm s).top = s.top := rfl
@[simp] theorem rearm_timing : (rearm s).timing = s.timing := rfl
@[simp] theorem rearm_timer : (rearm s).timer = ⟨true, s.timing.wt⟩ := rfl
@[simp] theorem rearm_atr : (rearm s).atr = s.atr := rfl
@[simp] theorem rearm_pps : (rearm s).pps = s.pps := rfl
@[simp] theorem rearm_obuf : (rearm s).obuf = s.obuf := rfl
@[simp] theorem rearm_tpdu : (rearm s).tpdu = s.tpdu := rfl
@[simp] theorem rearm_bridge : (rearm s).bridge = s.bridge := rfl
@[simp] theorem rearm_lastErr : (rearm s).lastErr = s.lastErr := rfl
@[simp] theorem rearm_fault : (rearm s).fault = s.fault := rfl
@[simp] theorem rearm_outq :
    (rearm s).outq = s.outq ++ [.timerSetWtime s.timing.wt, .timerArm] := rfl
@[simp] theorem rearm_inq : (rearm s).inq = s.inq := rfl
@[simp] theorem rearm_queryPort : (rearm s).queryPort = s.queryPort := rfl

/-! ### `timingDefaults` -/

@[simp] theorem timingDefaults_params : (timingDefaults s).params = s.params := rfl
@[simp] theorem timingDefaults_mode : (timingDefaults s).mode = s.mode := rfl
@[simp] theorem timingDefaults_atrCfg : (timingDefaults s).atrCfg = s.atrCfg := rfl
@[simp] theorem timingDefaults_rcemuActive : (timingDefaults s).rcemuActive = s.rcemuActive := rfl
@[simp] theorem timingDefaults_status : (timingDefaults s).status = s.status := rfl
@[simp] theorem timingDefaults_top : (timingDefaults s).top = s.top := rfl
@[simp] theorem timingDefaults_timing : (timingDefaults s).timing = .default := rfl
@[simp] theorem timingDefaults_timer : (timingDefaults s).timer = s.timer := rfl
@[simp] theorem timingDefaults_atr : (timingDefaults s).atr = s.atr := rfl
@[simp] theorem timingDefaults_pps : (timingDefaults s).pps = s.pps := rfl
@[simp] theorem timingDefaults_obuf : (timingDefaults s).obuf = s.obuf := rfl
@[simp] theorem timingDefaults_tpdu : (timingDefaults s).tpdu = s.tpdu := rfl
@[simp] theorem timingDefaults_bridge : (timingDefaults s).bridge = s.bridge := rfl
@[simp] theorem timingDefaults_lastErr : (timingDefaults s).lastErr = s.lastErr := rfl
@[simp] theorem timingDefaults_fault : (timingDefaults s).fault = s.fault := rfl
@[simp] theorem timingDefaults_outq : (timingDefaults s).outq = s.outq := rfl
@[simp] theorem timingDefaults_inq : (timingDefaults s).inq = s.inq := rfl
@[simp] theorem timingDefaults_queryPort : (timingDefaults s).queryPort = s.queryPort := rfl

/-! ### `atrClear` -/

@[simp] theorem atrClear_params : (atrClear s).params = s.params := rfl
@[simp] theorem atrClear_mode : (atrClear s).mode = s.mode := rfl
@[simp] theorem atrClear_atrCfg : (atrClear s).atrCfg = s.atrCfg := rfl
@[simp] theorem atrClear_rcemuActive : (atrClear s).rcemuActive = s.rcemuActive := rfl
@[simp] theorem atrClear_status : (atrClear s).status = s.status := rfl
@[simp] theorem atrClear_top : (atrClear s).top = s.top := rfl
@[simp] theorem atrClear_timing : (atrClear s).timing = s.timing := rfl
@[simp] theorem atrClear_timer : (atrClear s).timer = s.timer := rfl
@[simp] theorem atrClear_atr : (atrClear s).atr = .cleared := rfl
@[simp] theorem atrClear_pps : (atrClear s).pps = s.pps := rfl
@[simp] theorem atrClear_obuf : (atrClear s).obuf = s.obuf := rfl
@[simp] theorem atrClear_tpdu : (atrClear s).tpdu = s.tpdu := rfl
@[simp] theorem atrClear_bridge : (atrClear s).bridge = s.bridge := rfl
@[simp] theorem atrClear_lastErr : (atrClear s).lastErr = s.lastErr := rfl
@[simp] theorem atrClear_fault : (atrClear s).fault = s.fault := rfl
@[simp] theorem atrClear_outq : (atrClear s).outq = s.outq := rfl
@[simp] theorem atrClear_inq : (atrClear s).inq = s.inq := rfl
@[simp] theorem atrClear_queryPort : (atrClear s).queryPort = s.queryPort := rfl

/-! ### `ppsClear` -/

@[simp] theorem ppsClear_params : (ppsClear s).params = s.params := rfl
@[simp] theorem ppsClear_mode : (ppsClear s).mode = s.mode := rfl
@[simp] theorem ppsClear_atrCfg : (ppsClear s).atrCfg = s.atrCfg := rfl
@[simp] theorem ppsClear_rcemuActive : (ppsClear s).rcemuActive = s.rcemuActive := rfl
@[simp] theorem ppsClear_status : (ppsClear s).status = s.status := rfl
@[simp] theorem ppsClear_top : (ppsClear s).top = s.top := rfl
@[simp] theorem ppsClear_timing : (ppsClear s).timing = s.timing := rfl
@[simp] theorem ppsClear_timer : (ppsClear s).timer = s.timer := rfl
@[simp] theorem ppsClear_atr : (ppsClear s).atr = s.atr := rfl
@[simp] theorem ppsClear_pps : (ppsClear s).pps = .cleared := rfl
@[simp] theorem ppsClear_obuf : (ppsClear s).obuf = s.obuf := rfl
@[simp] theorem ppsClear_tpdu : (ppsClear s).tpdu = s.tpdu := rfl
@[simp] theorem ppsClear_bridge : (ppsClear s).bridge = s.bridge := rfl
@[simp] theorem ppsClear_lastErr : (ppsClear s).lastErr = s.lastErr := rfl
@[simp] theorem ppsClear_fault : (ppsClear s).fault = s.fault := rfl
@[simp] theorem ppsClear_outq : (ppsClear s).outq = s.outq := rfl
@[simp] theorem ppsClear_inq : (ppsClear s).inq = s.inq := rfl
@[simp] theorem ppsClear_queryPort : (ppsClear s).queryPort = s.queryPort := rfl

/-! ### `tpduClear` -/

@[simp] theorem tpduClear_params : (tpduClear s).params = s.params := rfl
@[simp] theorem tpduClear_mode : (tpduClear s).mode = s.mode := rfl
@[simp] theorem tpduClear_atrCfg : (tpduClear s).atrCfg = s.atrCfg := rfl
@[simp] theorem tpduClear_rcemuActive : (tpduClear s).rcemuActive = s.rcemuActive := rfl
@[simp] theorem tpduClear_status : (tpduClear s).status = s.status := rfl
@[simp] theorem tpduClear_top : (tpduClear s).top = s.top := rfl
@[simp] theorem tpduClear_timing : (tpduClear s).timing = s.timing := rfl
@[simp] theorem tpduClear_timer : (tpduClear s).timer = s.timer := rfl
@[simp] theorem tpduClear_atr : (tpduClear s).atr = s.atr := rfl
@[simp] theorem tpduClear_pps : (tpduClear s).pps = s.pps := rfl
@[simp] theorem tpduClear_obuf : (tpduClear s).obuf = s.obuf := rfl
@[simp] theorem tpduClear_tpdu : (tpduClear s).tpdu = .cleared := rfl
@[simp] theorem tpduClear_bridge : (tpduClear s).bridge = s.bridge := rfl
@[simp] theorem tpduClear_lastErr : (tpduClear s).lastErr = s.lastErr := rfl
@[simp] theorem tpduClear_fault : (tpduClear s).fault = s.fault := rfl
@[simp] theorem tpduClear_outq : (tpduClear s).outq = s.outq := rfl
@[simp] theorem tpduClear_inq : (tpduClear s).inq = s.inq := rfl
@[simp] theorem tpduClear_queryPort : (tpduClear s).queryPort = s.queryPort := rfl

/-! ### `sendBytes` -/

@[simp] theorem sendBytes_params (x : List Byte) : (sendBytes x s).params = s.params := rfl
@[simp] theorem sendBytes_mode (x : List Byte) : (sendBytes x s).mode = s.mode := rfl
@[simp] theorem sendBytes_atrCfg (x : List Byte) : (sendBytes x s).atrCfg = s.atrCfg := rfl
@[simp] theorem sendBytes_rcemuActive (x : List Byte) :
    (sendBytes x s).rcemuActive = s.rcemuActive := rfl
@[simp] theorem sendBytes_status (x : List Byte) : (sendBytes x s).status = s.status := rfl
@[simp] theorem sendBytes_top (x : List Byte) : (sendBytes x s).top = s.top := rfl
@[simp] theorem sendBytes_timing (x : List Byte) : (sendBytes x s).timing = s.timing := rfl
@[simp] theorem sendBytes_timer (x : List Byte) : (sendBytes x s).timer = s.timer := rfl
@[simp] theorem sendBytes_atr (x : List Byte) : (sendBytes x s).atr = s.atr := rfl
@[simp] theorem sendBytes_pps (x : List Byte) : (sendBytes x s).pps = s.pps := rfl
@[simp] theorem sendBytes_obuf (x : List Byte) : (sendBytes x s).obuf = s.obuf := rfl
@[simp] theorem sendBytes_tpdu (x : List Byte) : (sendBytes x s).tpdu = s.tpdu := rfl
@[simp] theorem sendBytes_bridge (x : List Byte) : (sendBytes x s).bridge = s.bridge := rfl
@[simp] theorem sendBytes_lastErr (x : List Byte) : (sendBytes x s).lastErr = s.lastErr := rfl
@[simp] theorem sendBytes_fault (x : List Byte) : (sendBytes x s).fault = s.fault := rfl
@[simp] theorem sendBytes_outq (x : List Byte) :
    (sendBytes x s).outq = s.outq ++ x.map .sendByte := rfl
@[simp] theorem sendBytes_inq (x : List Byte) : (sendBytes x s).inq = s.inq := rfl
@[simp] theorem sendBytes_queryPort (x : List Byte) : (sendBytes x s).queryPort = s.queryPort := rfl

/-! ### `setTpdu` -/

@[simp] theorem setTpdu_params (st : TpduState) (c : ApduCtx) :
    (setTpdu st c s).params = s.params := rfl
@[simp] theorem setTpdu_mode (st : TpduState) (c : ApduCtx) : (setTpdu st c s).mode = s.mode := rfl
@[simp] theorem setTpdu_atrCfg (st : TpduState) (c : ApduCtx) :
    (setTpdu st c s).atrCfg = s.atrCfg := rfl
@[simp] theorem setTpdu_rcemuActive (st : TpduState) (c : ApduCtx) :
    (setTpdu st c s).rcemuActive = s.rcemuActive := rfl
@[simp] theorem setTpdu_status (st : TpduState) (c : ApduCtx) :
    (setTpdu st c s).status = s.status := rfl
@[simp] theorem setTpdu_top (st : TpduState) (c : ApduCtx) : (setTpdu st c s).top = s.top := rfl
@[simp] theorem setTpdu_timing (st : TpduState) (c : ApduCtx) :
    (setTpdu st c s).timing = s.timing := rfl
@[simp] theorem setTpdu_timer (st : TpduState) (c : ApduCtx) :
    (setTpdu st c s).timer = s.timer := rfl
@[simp] theorem setTpdu_atr (st : TpduState) (c : ApduCtx) : (setTpdu st c s).atr = s.atr := rfl
@[simp] theorem setTpdu_pps (st : TpduState) (c : ApduCtx) : (setTpdu st c s).pps = s.pps := rfl
@[simp] theorem setTpdu_obuf (st : TpduState) (c : ApduCtx) : (setTpdu st c s).obuf = s.obuf := rfl
@[simp] theorem setTpdu_tpdu (st : TpduState) (c : ApduCtx) :
    (setTpdu st c s).tpdu = ⟨st, s.tpdu.dataLeft, c⟩ := rfl
@[simp] theorem setTpdu_bridge (st : TpduState) (c : ApduCtx) :
    (setTpdu st c s).bridge = s.bridge := rfl
@[simp] theorem setTpdu_lastErr (st : TpduState) (c : ApduCtx) :
    (setTpdu st c s).lastErr = s.lastErr := rfl
@[simp] theorem setTpdu_fault (st : TpduState) (c : ApduCtx) :
    (setTpdu st c s).fault = s.fault := rfl
@[simp] theorem setTpdu_outq (st : TpduState) (c : ApduCtx) : (setTpdu st c s).outq = s.outq := rfl
@[simp] theorem setTpdu_inq (st : TpduState) (c : ApduCtx) : (setTpdu st c s).inq = s.inq := rfl
@[simp] theorem setTpdu_queryPort (st : TpduState) (c : ApduCtx) :
    (setTpdu st c s).queryPort = s.queryPort := rfl

/-! ### `grant` -/

@[simp] theorem grant_params (n : Word) : (grant n s).params = s.params := rfl
@[simp] theorem grant_mode (n : Word) : (grant n s).mode = s.mode := rfl
@[simp] theorem grant_atrCfg (n : Word) : (grant n s).atrCfg = s.atrCfg := rfl
@[simp] theorem grant_rcemuActive (n : Word) : (grant n s).rcemuActive = s.rcemuActive := rfl
@[simp] theorem grant_status (n : Word) : (grant n s).status = s.status := rfl
@[simp] theorem grant_top (n : Word) : (grant n s).top = s.top := rfl
@[simp] theorem grant_timing (n : Word) : (grant n s).timing = s.timing := rfl
@[simp] theorem grant_timer (n : Word) : (grant n s).timer = s.timer := rfl
@[simp] theorem grant_atr (n : Word) : (grant n s).atr = s.atr := rfl
@[simp] theorem grant_pps (n : Word) : (grant n s).pps = s.pps := rfl
@[simp] theorem grant_obuf (n : Word) : (grant n s).obuf = s.obuf := rfl
@[simp] theorem grant_tpdu (n : Word) : (grant n s).tpdu = ⟨.data, n, s.tpdu.ctx⟩ := rfl
@[simp] theorem grant_bridge (n : Word) : (grant n s).bridge = s.bridge := rfl
@[simp] theorem grant_lastErr (n : Word) : (grant n s).lastErr = s.lastErr := rfl
@[simp] theorem grant_fault (n : Word) : (grant n s).fault = s.fault := rfl
@[simp] theorem grant_outq (n : Word) : (grant n s).outq = s.outq := rfl
@[simp] theorem grant_inq (n : Word) : (grant n s).inq = s.inq := rfl
@[simp] theorem grant_queryPort (n : Word) : (grant n s).queryPort = s.queryPort := rfl

/-! ### `recordLevels` -/

@[simp] theorem recordLevels_params (rst vcc clk : Bool) :
    (recordLevels rst vcc clk s).params = s.params := rfl
@[simp] theorem recordLevels_mode (rst vcc clk : Bool) :
    (recordLevels rst vcc clk s).mode = s.mode := rfl
@[simp] theorem recordLevels_atrCfg (rst vcc clk : Bool) :
    (recordLevels rst vcc clk s).atrCfg = s.atrCfg := rfl
@[simp] theorem recordLevels_rcemuActive (rst vcc clk : Bool) :
    (recordLevels rst vcc clk s).rcemuActive = s.rcemuActive := rfl
@[simp] theorem recordLevels_status (rst vcc clk : Bool) :
    (recordLevels rst vcc clk s).status = withLevels s.status rst vcc clk := rfl
@[simp] theorem recordLevels_top (rst vcc clk : Bool) :
    (recordLevels rst vcc clk s).top = s.top := rfl
@[simp] theorem recordLevels_timing (rst vcc clk : Bool) :
    (recordLevels rst vcc clk s).timing = s.timing := rfl
@[simp] theorem recordLevels_timer (rst vcc clk : Bool) :
    (recordLevels rst vcc clk s).timer = s.timer := rfl
@[simp] theorem recordLevels_atr (rst vcc clk : Bool) :
    (recordLevels rst vcc clk s).atr = s.atr := rfl
@[simp] theorem recordLevels_pps (rst vcc clk : Bool) :
    (recordLevels rst vcc clk s).pps = s.pps := rfl
@[simp] theorem recordLevels_obuf (rst vcc clk : Bool) :
    (recordLevels rst vcc clk s).obuf = s.obuf := rfl
@[simp] theorem recordLevels_tpdu (rst vcc clk : Bool) :
    (recordLevels rst vcc clk s).tpdu = s.tpdu := rfl
@[simp] theorem recordLevels_bridge (rst vcc clk : Bool) :
    (recordLevels rst vcc clk s).bridge = s.bridge := rfl
@[simp] theorem recordLevels_lastErr (rst vcc clk : Bool) :
    (recordLevels rst vcc clk s).lastErr = s.lastErr := rfl
@[simp] theorem recordLevels_fault (rst vcc clk : Bool) :
    (recordLevels rst vcc clk s).fault = s.fault := rfl
@[simp] theorem recordLevels_outq (rst vcc clk : Bool) :
    (recordLevels rst vcc clk s).outq = s.outq ++ [.change (withLevels s.status rst vcc clk)] := rfl
@[simp] theorem recordLevels_inq (rst vcc clk : Bool) :
    (recordLevels rst vcc clk s).inq = s.inq := rfl
@[simp] theorem recordLevels_queryPort (rst vcc clk : Bool) :
    (recordLevels rst vcc clk s).queryPort = s.queryPort := rfl

/-! ### `framingError` -/

@[simp] theorem framingError_params (b : Byte) (pe oe fe : Bool) :
    (framingError b pe oe fe s).params = s.params := rfl
@[simp] theorem framingError_mode (b : Byte) (pe oe fe : Bool) :
    (framingError b pe oe fe s).mode = s.mode := rfl
@[simp] theorem framingError_atrCfg (b : Byte) (pe oe fe : Bool) :
    (framingError b pe oe fe s).atrCfg = s.atrCfg := rfl
@[simp] theorem framingError_rcemuActive (b : Byte) (pe oe fe : Bool) :
    (framingError b pe oe fe s).rcemuActive = s.rcemuActive := rfl
@[simp] theorem framingError_status (b : Byte) (pe oe fe : Bool) :
    (framingError b pe oe fe s).status = s.status := rfl
@[simp] theorem framingError_top (b : Byte) (pe oe fe : Bool) :
    (framingError b pe oe fe s).top = s.top := rfl
@[simp] theorem framingError_timing (b : Byte) (pe oe fe : Bool) :
    (framingError b pe oe fe s).timing = s.timing := rfl
@[simp] theorem framingError_timer (b : Byte) (pe oe fe : Bool) :
    (framingError b pe oe fe s).timer = s.timer := rfl
@[simp] theorem framingError_atr (b : Byte) (pe oe fe : Bool) :
    (framingError b pe oe fe s).atr = s.atr := rfl
@[simp] theorem framingError_pps (b : Byte) (pe oe fe : Bool) :
    (framingError b pe oe fe s).pps = s.pps := rfl
@[simp] theorem framingError_obuf (b : Byte) (pe oe fe : Bool) :
    (framingError b pe oe fe s).obuf = s.obuf := rfl
@[simp] theorem framingError_tpdu (b : Byte) (pe oe fe : Bool) :
    (framingError b pe oe fe s).tpdu = s.tpdu := rfl
@[simp] theorem framingError_bridge (b : Byte) (pe oe fe : Bool) :
    (framingError b pe oe fe s).bridge = s.bridge := rfl
@[simp] theorem framingError_lastErr (b : Byte) (pe oe fe : Bool) :
    (framingError b pe oe fe s).lastErr = some (.framing b pe oe fe) := rfl
@[simp] theorem framingError_fault (b : Byte) (pe oe fe : Bool) :
    (framingError b pe oe fe s).fault = s.fault := rfl
@[simp] theorem framingError_outq (b : Byte) (pe oe fe : Bool) :
    (framingError b pe oe fe s).outq = s.outq ++ [.error (.framing b pe oe fe)] := rfl
@[simp] theorem framingError_inq (b : Byte) (pe oe fe : Bool) :
    (framingError b pe oe fe s).inq = s.inq := rfl
@[simp] theorem framingError_queryPort (b : Byte) (pe oe fe : Bool) :
    (framingError b pe oe fe s).queryPort = s.queryPort := rfl

/-! ### `bridgeFatal` -/

@[simp] theorem bridgeFatal_params (e : BridgeErr) : (bridgeFatal e s).params = s.params := rfl
@[simp] theorem bridgeFatal_mode (e : BridgeErr) : (bridgeFatal e s).mode = s.mode := rfl
@[simp] theorem bridgeFatal_atrCfg (e : BridgeErr) : (bridgeFatal e s).atrCfg = s.atrCfg := rfl
@[simp] theorem bridgeFatal_rcemuActive (e : BridgeErr) :
    (bridgeFatal e s).rcemuActive = s.rcemuActive := rfl
@[simp] theorem bridgeFatal_status (e : BridgeErr) : (bridgeFatal e s).status = s.status := rfl
@[simp] theorem bridgeFatal_top (e : BridgeErr) : (bridgeFatal e s).top = s.top := rfl
@[simp] theorem bridgeFatal_timing (e : BridgeErr) : (bridgeFatal e s).timing = s.timing := rfl
@[simp] theorem bridgeFatal_timer (e : BridgeErr) : (bridgeFatal e s).timer = s.timer := rfl
@[simp] theorem bridgeFatal_atr (e : BridgeErr) : (bridgeFatal e s).atr = s.atr := rfl
@[simp] theorem bridgeFatal_pps (e : BridgeErr) : (bridgeFatal e s).pps = s.pps := rfl
@[simp] theorem bridgeFatal_obuf (e : BridgeErr) : (bridgeFatal e s).obuf = s.obuf := rfl
@[simp] theorem bridgeFatal_tpdu (e : BridgeErr) : (bridgeFatal e s).tpdu = s.tpdu := rfl
@[simp] theorem bridgeFatal_bridge (e : BridgeErr) :
    (bridgeFatal e s).bridge = { s.bridge with fatal := true } := rfl
@[simp] theorem bridgeFatal_lastErr (e : BridgeErr) :
    (bridgeFatal e s).lastErr = some (.fatalBridge e) := rfl
@[simp] theorem bridgeFatal_fault (e : BridgeErr) : (bridgeFatal e s).fault = s.fault := rfl
@[simp] theorem bridgeFatal_outq (e : BridgeErr) :
    (bridgeFatal e s).outq = s.outq ++ [.error (.fatalBridge e)] := rfl
@[simp] theorem bridgeFatal_inq (e : BridgeErr) : (bridgeFatal e s).inq = s.inq := rfl
@[simp] theorem bridgeFatal_queryPort (e : BridgeErr) :
    (bridgeFatal e s).queryPort = s.queryPort := rfl

/-! ### `inReset` -/

@[simp] theorem inReset_params : (inReset s).params = s.params := rfl
@[simp] theorem inReset_mode : (inReset s).mode = s.mode := rfl
@[simp] theorem inReset_atrCfg : (inReset s).atrCfg = s.atrCfg := rfl
@[simp] theorem inReset_rcemuActive : (inReset s).rcemuActive = s.rcemuActive := rfl
@[simp] theorem inReset_status : (inReset s).status = s.status := rfl
@[simp] theorem inReset_top : (inReset s).top = .reset := rfl
@[simp] theorem inReset_timing : (inReset s).timing = .default := rfl
@[simp] theorem inReset_timer : (inReset s).timer = ⟨false, s.timer.load⟩ := rfl
@[simp] theorem inReset_atr : (inReset s).atr = .cleared := rfl
@[simp] theorem inReset_pps : (inReset s).pps = .cleared := rfl
@[simp] theorem inReset_obuf : (inReset s).obuf = [] := rfl
@[simp] theorem inReset_tpdu : (inReset s).tpdu = .cleared := rfl
@[simp] theorem inReset_bridge : (inReset s).bridge = s.bridge := rfl
@[simp] theorem inReset_lastErr : (inReset s).lastErr = s.lastErr := rfl
@[simp] theorem inReset_fault : (inReset s).fault = s.fault := rfl
@[simp] theorem inReset_outq : (inReset s).outq = s.outq := rfl
@[simp] theorem inReset_inq : (inReset s).inq = s.inq := rfl
@[simp] theorem inReset_queryPort : (inReset s).queryPort = s.queryPort := rfl

/-! ### `inWaitAtr` -/

@[simp] theorem inWaitAtr_params : (inWaitAtr s).params = s.params := rfl
@[simp] theorem inWaitAtr_mode : (inWaitAtr s).mode = s.mode := rfl
@[simp] theorem inWaitAtr_atrCfg : (inWaitAtr s).atrCfg = s.atrCfg := rfl
@[simp] theorem inWaitAtr_rcemuActive : (inWaitAtr s).rcemuActive = s.rcemuActive := rfl
@[simp] theorem inWaitAtr_status : (inWaitAtr s).status = s.status := rfl
@[simp] theorem inWaitAtr_top : (inWaitAtr s).top = .waitAtr := rfl
@[simp] theorem inWaitAtr_timing : (inWaitAtr s).timing = .default := rfl
@[simp] theorem inWaitAtr_timer : (inWaitAtr s).timer = ⟨false, 9600⟩ := rfl
@[simp] theorem inWaitAtr_atr : (inWaitAtr s).atr = .cleared := rfl
@[simp] theorem inWaitAtr_pps : (inWaitAtr s).pps = .cleared := rfl
@[simp] theorem inWaitAtr_obuf : (inWaitAtr s).obuf = s.obuf := rfl
@[simp] theorem inWaitAtr_tpdu : (inWaitAtr s).tpdu = .cleared := rfl
@[simp] theorem inWaitAtr_bridge : (inWaitAtr s).bridge = s.bridge := rfl
@[simp] theorem inWaitAtr_lastErr : (inWaitAtr s).lastErr = s.lastErr := rfl
@[simp] theorem inWaitAtr_fault : (inWaitAtr s).fault = s.fault := rfl
@[simp] theorem inWaitAtr_outq : (inWaitAtr s).outq = s.outq := rfl
@[simp] theorem inWaitAtr_inq : (inWaitAtr s).inq = s.inq := rfl
@[simp] theorem inWaitAtr_queryPort : (inWaitAtr s).queryPort = s.queryPort := rfl

/-! ### `afterByte` -/

@[simp] theorem afterByte_params (out : List Record) : (afterByte s out).params = s.params := rfl
@[simp] theorem afterByte_mode (out : List Record) : (afterByte s out).mode = s.mode := rfl
@[simp] theorem afterByte_atrCfg (out : List Record) : (afterByte s out).atrCfg = s.atrCfg := rfl
@[simp] theorem afterByte_rcemuActive (out : List Record) :
    (afterByte s out).rcemuActive = s.rcemuActive := rfl
@[simp] theorem afterByte_status (out : List Record) : (afterByte s out).status = s.status := rfl
@[simp] theorem afterByte_top (out : List Record) : (afterByte s out).top = s.top := rfl
@[simp] theorem afterByte_timing (out : List Record) : (afterByte s out).timing = s.timing := rfl
@[simp] theorem afterByte_timer (out : List Record) :
    (afterByte s out).timer = ⟨true, s.timing.wt⟩ := rfl
@[simp] theorem afterByte_atr (out : List Record) : (afterByte s out).atr = s.atr := rfl
@[simp] theorem afterByte_pps (out : List Record) : (afterByte s out).pps = s.pps := rfl
@[simp] theorem afterByte_obuf (out : List Record) : (afterByte s out).obuf = s.obuf := rfl
@[simp] theorem afterByte_tpdu (out : List Record) : (afterByte s out).tpdu = s.tpdu := rfl
@[simp] theorem afterByte_bridge (out : List Record) : (afterByte s out).bridge = s.bridge := rfl
@[simp] theorem afterByte_lastErr (out : List Record) : (afterByte s out).lastErr = s.lastErr := rfl
@[simp] theorem afterByte_fault (out : List Record) : (afterByte s out).fault = s.fault := rfl
@[simp] theorem afterByte_outq (out : List Record) :
    (afterByte s out).outq = s.outq ++ out ++ [.timerSetWtime s.timing.wt, .timerArm] := rfl
@[simp] theorem afterByte_inq (out : List Record) : (afterByte s out).inq = s.inq := rfl
@[simp] theorem afterByte_queryPort (out : List Record) :
    (afterByte s out).queryPort = s.queryPort := rfl

/-! ### `afterBridge` -/

@[simp] theorem afterBridge_params (b : Bridge) (out : List Record) :
    (afterBridge s b out).params = s.params := rfl
@[simp] theorem afterBridge_mode (b : Bridge) (out : List Record) :
    (afterBridge s b out).mode = s.mode := rfl
@[simp] theorem afterBridge_atrCfg (b : Bridge) (out : List Record) :
    (afterBridge s b out).atrCfg = s.atrCfg := rfl
@[simp] theorem afterBridge_rcemuActive (b : Bridge) (out : List Record) :
    (afterBridge s b out).rcemuActive = s.rcemuActive := rfl
@[simp] theorem afterBridge_status (b : Bridge) (out : List Record) :
    (afterBridge s b out).status = s.status := rfl
@[simp] theorem afterBridge_top (b : Bridge) (out : List Record) :
    (afterBridge s b out).top = s.top := rfl
@[simp] theorem afterBridge_timing (b : Bridge) (out : List Record) :
    (afterBridge s b out).timing = s.timing := rfl
@[simp] theorem afterBridge_timer (b : Bridge) (out : List Record) :
    (afterBridge s b out).timer = s.timer := rfl
@[simp] theorem afterBridge_atr (b : Bridge) (out : List Record) :
    (afterBridge s b out).atr = s.atr := rfl
@[simp] theorem afterBridge_pps (b : Bridge) (out : List Record) :
    (afterBridge s b out).pps = s.pps := rfl
@[simp] theorem afterBridge_obuf (b : Bridge) (out : List Record) :
    (afterBridge s b out).obuf = s.obuf := rfl
@[simp] theorem afterBridge_tpdu (b : Bridge) (out : List Record) :
    (afterBridge s b out).tpdu = s.tpdu := rfl
@[simp] theorem afterBridge_bridge (b : Bridge) (out : List Record) :
    (afterBridge s b out).bridge = b := rfl
@[simp] theorem afterBridge_lastErr (b : Bridge) (out : List Record) :
    (afterBridge s b out).lastErr = s.lastErr := rfl
@[simp] theorem afterBridge_fault (b : Bridge) (out : List Record) :
    (afterBridge s b out).fault = s.fault := rfl
@[simp] theorem afterBridge_outq (b : Bridge) (out : List Record) :
    (afterBridge s b out).outq = s.outq ++ out := rfl
@[simp] theorem afterBridge_inq (b : Bridge) (out : List Record) :
    (afterBridge s b out).inq = s.inq := rfl
@[simp] theorem afterBridge_queryPort (b : Bridge) (out : List Record) :
    (afterBridge s b out).queryPort = s.queryPort := rfl

/-! ### `afterError` -/

@[simp] theorem afterError_params (e : ErrInfo) : (afterError s e).params = s.params := rfl
@[simp] theorem afterError_mode (e : ErrInfo) : (afterError s e).mode = s.mode := rfl
@[simp] theorem afterError_atrCfg (e : ErrInfo) : (afterError s e).atrCfg = s.atrCfg := rfl
@[simp] theorem afterError_rcemuActive (e : ErrInfo) :
    (afterError s e).rcemuActive = s.rcemuActive := rfl
@[simp] theorem afterError_status (e : ErrInfo) : (afterError s e).status = s.status := rfl
@[simp] theorem afterError_top (e : ErrInfo) : (afterError s e).top = s.top := rfl
@[simp] theorem afterError_timing (e : ErrInfo) : (afterError s e).timing = s.timing := rfl
@[simp] theorem afterError_timer (e : ErrInfo) : (afterError s e).timer = s.timer := rfl
@[simp] theorem afterError_atr (e : ErrInfo) : (afterError s e).atr = s.atr := rfl
@[simp] theorem afterError_pps (e : ErrInfo) : (afterError s e).pps = s.pps := rfl
@[simp] theorem afterError_obuf (e : ErrInfo) : (afterError s e).obuf = s.obuf := rfl
@[simp] theorem afterError_tpdu (e : ErrInfo) : (afterError s e).tpdu = s.tpdu := rfl
@[simp] theorem afterError_bridge (e : ErrInfo) : (afterError s e).bridge = s.bridge := rfl
@[simp] theorem afterError_lastErr (e : ErrInfo) : (afterError s e).lastErr = some e := rfl
@[simp] theorem afterError_fault (e : ErrInfo) : (afterError s e).fault = s.fault := rfl
@[simp] theorem afterError_outq (e : ErrInfo) : (afterError s e).outq = s.outq ++ [.error e] := rfl
@[simp] theorem afterError_inq (e : ErrInfo) : (afterError s e).inq = s.inq := rfl
@[simp] theorem afterError_queryPort (e : ErrInfo) : (afterError s e).queryPort = s.queryPort := rfl

/-! ### What the entry procedures emit does not depend on the levels just recorded -/

@[simp] theorem resetOut_recordLevels (rst vcc clk : Bool) :
    resetOut (recordLevels rst vcc clk s) = resetOut s := rfl
@[simp] theorem waitAtrOut_recordLevels (rst vcc clk : Bool) :
    waitAtrOut (recordLevels rst vcc clk s) = waitAtrOut s := rfl

end Sys2Proof.Machine
end

