-- ==== Sys2Proof/Laws/Ops.lean ====
section
/-! SUPPORT. For each shared operation, once, everything it does: the state it answers as one update of
the state it is given. -/

namespace Sys2Proof.Machine

variable (s : State)

theorem whenLive_live (k : State → Answer) (h : s.fault = none) : whenLive k s = k s := by
  simp [whenLive, h]

theorem whenLive_stuck (k : State → Answer) (h : s.fault ≠ none) : whenLive k s = .next s := by
  simp [whenLive, h]

theorem whenBridgeLive_live (k : State → Answer) (h : s.fault = none) (hb : s.bridge.fatal = false) :
    whenBridgeLive k s = k s := by
  simp [whenBridgeLive, whenLive, h, hb]

theorem whenBridgeLive_stopped (k : State → Answer) (h : s.fault ≠ none ∨ s.bridge.fatal = true) :
    whenBridgeLive k s = .next s := by
  by_cases hf : s.fault = none <;> simp_all [whenBridgeLive, whenLive]

theorem flush_eq (reason : FlushReason) :
    flush reason s = { s with obuf := [], outq := s.outq ++ flushed reason s.obuf } := by
  unfold flush flushed
  split <;> rename_i h
  · rw [List.append_nil, ← h]
  · rfl

theorem obufAppend_eq (b : Byte) :
    obufAppend b s = { s with
      obuf := appendedObuf s.params.obufSize s.obuf b
      outq := s.outq ++ appendedOut s.params.obufSize s.obuf b } := by
  unfold obufAppend appendedObuf appendedOut
  by_cases h : s.obuf.length + 1 = s.params.obufSize <;> simp [h, flush_eq, flushed]

theorem disarm_eq :
    disarm s = { s with
      timer := ⟨false, s.timer.load⟩, outq := s.outq ++ disarmed s.timer.armed } := by
  rcases h : s.timer with ⟨_ | _, l⟩ <;> simp [disarm, disarmed, h, emit]
  rw [← h]

/-- `Reset` entry as one update (rule R212). -/
theorem enterReset_eq : enterReset s = { inReset s with outq := s.outq ++ resetOut s } := by
  cases h : s.params.resetFlush <;>
    simp [enterReset, inReset, resetOut, h, flush_eq, emit, disarm_eq, timingDefaults, atrClear,
      ppsClear, tpduClear]

/-- `WaitAtr` entry as one update (rules R161, R213). -/
theorem enterWaitAtr_eq : enterWaitAtr s = { inWaitAtr s with outq := s.outq ++ waitAtrOut s } := by
  by_cases h : s.mode = .cardEmu <;>
    simp [enterWaitAtr, inWaitAtr, waitAtrOut, h, emit, disarm_eq, timingDefaults, atrClear, ppsClear,
      tpduClear, sendAtr, sendBytes, emulatedAtr]

theorem handLine_done (rule : State → Effect) (t : State) (h : rule s = .done t) :
    handLine rule s = .next (if t.top = .reset then t else rearm t) := by
  simp [handLine, h]

theorem handLine_faulted (rule : State → Effect) (f : ModelFault) (h : rule s = .faulted f) :
    handLine rule s = .next (enterFault f s) := by
  simp [handLine, h, settle]

/-- If a handed line byte answers a next state, its rule is done and the timer re-armed, or the slot has
a model fault and nothing else new. -/
theorem handLine_next (rule : State → Effect) (t : State) (h : handLine rule s = .next t) :
    (∃ u, rule s = .done u ∧ t = if u.top = .reset then u else rearm u)
      ∨ (∃ f, rule s = .faulted f ∧ t = enterFault f s) := by
  unfold handLine at h
  split at h <;> rename_i hr
  · exact .inl ⟨_, hr, by simpa using h.symm⟩
  · exact .inr ⟨_, hr, by simpa [settle] using h.symm⟩
  · simp [settle] at h

/-- If a WT expiry answers a next state, its rule was given the disarmed timer. -/
theorem handExpiry_next (rule : State → Effect) (t : State) (h : handExpiry rule s = .next t) :
    rule { s with timer := { s.timer with armed := false } } = .done t
      ∨ (∃ f, rule { s with timer := { s.timer with armed := false } } = .faulted f
          ∧ t = enterFault f s) := by
  unfold handExpiry settle at h
  split at h <;> rename_i hr
  · exact .inl (by rw [hr]; simpa using h)
  · exact .inr ⟨_, hr, by simpa using h.symm⟩
  · simp at h

theorem lineRow_applies (applies : State → Bool) (rule : State → Effect) (dir : Bool) (b : Byte)
    (hf : s.fault = none) (ha : applies s = true) :
    lineRow applies rule dir b s = handLine rule s := by
  simp [lineRow, hf, ha]

theorem lineRow_else (applies : State → Bool) (rule : State → Effect) (dir : Bool) (b : Byte)
    (ha : s.fault ≠ none ∨ applies s = false) :
    lineRow applies rule dir b s = lineEvent dir false false false b s := by
  unfold lineRow
  rw [if_neg]
  rintro ⟨h1, h2⟩
  rcases ha with ha | ha
  · exact ha h1
  · rw [ha] at h2; cases h2

theorem expiryRow_applies (top : Top) (rule : State → Effect) (hf : s.fault = none)
    (ha : s.timer.armed = true) (ht : s.top = top) :
    expiryRow top rule s = handExpiry rule s := by
  simp [expiryRow, hf, ha, ht]

/-- What the ATR commit makes of the timing registers (rule R152). -/
def committedTiming (s : State) : TimingResult × Timing :=
  let fi := match s.atr.ta1 with | some t => hiNibble t | none => s.timing.capFi
  let di := match s.atr.ta1 with | some t => loNibble t | none => s.timing.capDi
  let wi := match s.atr.wi with | some v => v | none => s.timing.wi
  match calcWt s.params.diTail wi (fiOf fi) (diOf s.params.diTail di) 372#16 1#8 with
  | .ok wt => (.ok wt, { s.timing with capFi := fi, capDi := di, wi := wi, wt := wt })
  | .err e => (.err e, s.timing)

/-- The ATR commit as one update (rule R152). -/
theorem atrCommit_eq :
    atrCommit s = { s with
      timing := (committedTiming s).2
      lastErr := match (committedTiming s).1 with
        | .ok _ => s.lastErr
        | .err e => some (.timing e .atr)
      outq := s.outq ++ match (committedTiming s).1 with
        | .ok _ => []
        | .err e => [.error (.timing e .atr)] } := by
  cases h1 : s.atr.ta1 <;> cases h2 : s.atr.wi <;>
    simp only [atrCommit, committedTiming, h1, h2] <;>
    generalize calcWt _ _ _ _ _ _ = r <;> cases r <;> simp [raise, emit]

/-- ATR completion as one update (rule R151). -/
theorem atrDone_eq :
    atrDone s = { s with
      obuf := [], top := .waitApdu, tpdu := .cleared
      timing := (committedTiming s).2
      lastErr := match (committedTiming s).1 with
        | .ok _ => s.lastErr
        | .err e => some (.timing e .atr)
      outq := s.outq ++ flushed .atrDone s.obuf ++ [.atr s.atr.buf s.atr.buf.length]
        ++ match (committedTiming s).1 with
          | .ok _ => []
          | .err e => [.error (.timing e .atr)] } := by
  simp only [atrDone, flush_eq, emit, atrCommit_eq, tpduClear, committedTiming]

/-- An ATR byte rule: it overflows the full buffer, or appends and goes on, completing at `Done`
(rules R142, R151). -/
theorem atrRule_cases (take : AtrRegs → AtrRegs) (b : Byte) (e : Effect)
    (h : atrRule take b s = e) :
    (s.atr.buf.length = s.params.atrMax ∧ e = .faulted .atrOverflow)
    ∨ (s.atr.buf.length ≠ s.params.atrMax
        ∧ (take { s.atr with buf := s.atr.buf ++ [b] }).st ≠ .done
        ∧ e = .done { s with atr := take { s.atr with buf := s.atr.buf ++ [b] } })
    ∨ (s.atr.buf.length ≠ s.params.atrMax
        ∧ (take { s.atr with buf := s.atr.buf ++ [b] }).st = .done
        ∧ e = .done (atrDone { s with atr := take { s.atr with buf := s.atr.buf ++ [b] } })) := by
  subst h
  by_cases h1 : s.atr.buf.length = s.params.atrMax
  · simp [atrRule, h1]
  · by_cases h2 : (take { s.atr with buf := s.atr.buf ++ [b] }).st = .done <;>
      simp [atrRule, h1, h2]

/-- The dispatch of the bridge: what it changes, in each of its outcomes (rule R295). -/
theorem bridgeDispatch_cases (e : Effect) (h : bridgeDispatch s = e) :
    (s.bridge.ctx.lc.cur.toNat < s.bridge.ctx.lc.tot.toNat
        ∧ e = .done (emit (.rxMore (s.bridge.ctx.lc.tot - s.bridge.ctx.lc.cur)) s))
    ∨ (¬ s.bridge.ctx.lc.cur.toNat < s.bridge.ctx.lc.tot.toNat ∧ s.bridge.forwarded = false
        ∧ ((capdu s.bridge.ctx s.bridge.ext = none ∧ e = .noRule)
          ∨ ∃ x, capdu s.bridge.ctx s.bridge.ext = some x
            ∧ e = .done (emit (.txToCard x)
                { s with bridge := { s.bridge with forwarded := true } })))
    ∨ (¬ s.bridge.ctx.lc.cur.toNat < s.bridge.ctx.lc.tot.toNat ∧ s.bridge.forwarded = true
        ∧ ((∃ s1 s2, s.bridge.ctx.sw0 = some s1 ∧ s.bridge.ctx.sw1 = some s2
            ∧ e = .done (emit (.complete s1 s2 s.bridge.ctx.de) s))
          ∨ ((s.bridge.ctx.sw0 = none ∨ s.bridge.ctx.sw1 = none)
            ∧ e = .done (bridgeFatal .noOutcome s)))) := by
  subst h
  by_cases h1 : s.bridge.ctx.lc.cur.toNat < s.bridge.ctx.lc.tot.toNat
  · exact .inl ⟨h1, by simp [bridgeDispatch, h1]⟩
  · cases h2 : s.bridge.forwarded
    · refine .inr (.inl ⟨h1, rfl, ?_⟩)
      cases h3 : capdu s.bridge.ctx s.bridge.ext with
      | none => exact .inl ⟨rfl, by simp [bridgeDispatch, h1, h2, h3]⟩
      | some x => exact .inr ⟨x, rfl, by simp [bridgeDispatch, h1, h2, h3]⟩
    · refine .inr (.inr ⟨h1, rfl, ?_⟩)
      cases h3 : s.bridge.ctx.sw0 <;> cases h4 : s.bridge.ctx.sw1 <;>
        simp [bridgeDispatch, h1, h2, h3, h4]

end Sys2Proof.Machine
end

