-- ==== Sys2Proof/Laws/PerInstr.lean ====
section
/-! SUPPORT. What holds of every row of the opcode table as syntax: a row and its event are written with
the same word and payload, the event of a row is an event row, and it is well formed if the row is (rules
R80, R100). One lemma per constructor. -/

namespace Sys2Proof.Laws.EventOfRow

/-- The word and payload of the row are those of its event, which is its own event, and well formed if
the row is. -/
def Statement (i : Instr) : Prop :=
  encode i = encode i.event ∧ i.event.event = i.event ∧ (i.wf → i.event.wf)

theorem lineBytePe (dir oe fe : Bool) (b : Byte) : Statement (.lineBytePe dir oe fe b) :=
  ⟨rfl, rfl, fun h => h⟩

theorem lineByteOe (dir pe fe : Bool) (b : Byte) : Statement (.lineByteOe dir pe fe b) :=
  ⟨rfl, rfl, fun h => h⟩

theorem lineByteFe (dir pe oe : Bool) (b : Byte) : Statement (.lineByteFe dir pe oe b) :=
  ⟨rfl, rfl, fun h => h⟩

theorem lineByteReset (dir pe oe fe : Bool) (b : Byte) : Statement (.lineByteReset dir pe oe fe b) :=
  ⟨rfl, rfl, fun h => h⟩

theorem lineByteWaitAtr (dir : Bool) (b : Byte) : Statement (.lineByteWaitAtr dir b) :=
  ⟨rfl, rfl, fun h => h⟩

theorem atrTs (dir : Bool) (b : Byte) : Statement (.atrTs dir b) :=
  ⟨rfl, rfl, fun h => h⟩

theorem atrT0 (dir : Bool) (b : Byte) : Statement (.atrT0 dir b) :=
  ⟨rfl, rfl, fun h => h⟩

theorem atrTa (dir : Bool) (b : Byte) : Statement (.atrTa dir b) :=
  ⟨rfl, rfl, fun h => h⟩

theorem atrTb (dir : Bool) (b : Byte) : Statement (.atrTb dir b) :=
  ⟨rfl, rfl, fun h => h⟩

theorem atrTc (dir : Bool) (b : Byte) : Statement (.atrTc dir b) :=
  ⟨rfl, rfl, fun h => h⟩

theorem atrTd (dir : Bool) (b : Byte) : Statement (.atrTd dir b) :=
  ⟨rfl, rfl, fun h => h⟩

theorem atrHist (dir : Bool) (b : Byte) : Statement (.atrHist dir b) :=
  ⟨rfl, rfl, fun h => h⟩

theorem atrTck (dir : Bool) (b : Byte) : Statement (.atrTck dir b) :=
  ⟨rfl, rfl, fun h => h⟩

theorem lineByteInAtr (dir : Bool) (b : Byte) : Statement (.lineByteInAtr dir b) :=
  ⟨rfl, rfl, fun h => h⟩

theorem ppsPtssReq (dir : Bool) : Statement (.ppsPtssReq dir) :=
  ⟨rfl, rfl, fun h => h⟩

theorem tpduCla (dir : Bool) (b : Byte) : Statement (.tpduCla dir b) :=
  ⟨rfl, rfl, fun _ => trivial⟩

theorem lineByteWaitApdu (dir : Bool) (b : Byte) : Statement (.lineByteWaitApdu dir b) :=
  ⟨rfl, rfl, fun h => h⟩

theorem lineByteInPts (dir : Bool) (b : Byte) : Statement (.lineByteInPts dir b) :=
  ⟨rfl, rfl, fun h => h⟩

theorem ppsPts0 (dir : Bool) (b : Byte) : Statement (.ppsPts0 dir b) :=
  ⟨rfl, rfl, fun h => h⟩

theorem ppsPts1 (dir : Bool) (b : Byte) : Statement (.ppsPts1 dir b) :=
  ⟨rfl, rfl, fun h => h⟩

theorem ppsPts2 (dir : Bool) (b : Byte) : Statement (.ppsPts2 dir b) :=
  ⟨rfl, rfl, fun h => h⟩

theorem ppsPts3 (dir : Bool) (b : Byte) : Statement (.ppsPts3 dir b) :=
  ⟨rfl, rfl, fun h => h⟩

theorem ppsPckReq (dir : Bool) (b : Byte) : Statement (.ppsPckReq dir b) :=
  ⟨rfl, rfl, fun h => h⟩

theorem ppsPtssResp (dir : Bool) (b : Byte) : Statement (.ppsPtssResp dir b) :=
  ⟨rfl, rfl, fun h => h⟩

theorem ppsPckResp (dir : Bool) (b : Byte) : Statement (.ppsPckResp dir b) :=
  ⟨rfl, rfl, fun h => h⟩

theorem lineByteInApdu (dir : Bool) (b : Byte) : Statement (.lineByteInApdu dir b) :=
  ⟨rfl, rfl, fun h => h⟩

theorem tpduIns (dir : Bool) (b : Byte) : Statement (.tpduIns dir b) :=
  ⟨rfl, rfl, fun h => h⟩

theorem tpduP1 (dir : Bool) (b : Byte) : Statement (.tpduP1 dir b) :=
  ⟨rfl, rfl, fun h => h⟩

theorem tpduP2 (dir : Bool) (b : Byte) : Statement (.tpduP2 dir b) :=
  ⟨rfl, rfl, fun h => h⟩

theorem tpduP3 (dir : Bool) (b : Byte) : Statement (.tpduP3 dir b) :=
  ⟨rfl, rfl, fun h => h⟩

theorem tpduPbNull (dir : Bool) : Statement (.tpduPbNull dir) :=
  ⟨rfl, rfl, fun h => h⟩

theorem tpduPbSw16x (dir : Bool) (lo : Nibble) : Statement (.tpduPbSw16x dir lo) :=
  ⟨rfl, rfl, fun _ => trivial⟩

theorem tpduPbSw19x (dir : Bool) (lo : Nibble) : Statement (.tpduPbSw19x dir lo) :=
  ⟨rfl, rfl, fun h => h⟩

theorem tpduPbAckAll (dir : Bool) (b : Byte) : Statement (.tpduPbAckAll dir b) :=
  ⟨rfl, rfl, fun _ => trivial⟩

theorem tpduPbAckOne (dir : Bool) (b : Byte) : Statement (.tpduPbAckOne dir b) :=
  ⟨rfl, rfl, fun _ => trivial⟩

theorem tpduPbOther (dir : Bool) (b : Byte) : Statement (.tpduPbOther dir b) :=
  ⟨rfl, rfl, fun _ => trivial⟩

theorem tpduData (dir : Bool) (b : Byte) : Statement (.tpduData dir b) :=
  ⟨rfl, rfl, fun h => h⟩

theorem tpduSw2 (dir : Bool) (b : Byte) : Statement (.tpduSw2 dir b) :=
  ⟨rfl, rfl, fun h => h⟩

theorem lineByte (dir pe oe fe : Bool) (b : Byte) : Statement (.lineByte dir pe oe fe b) :=
  ⟨rfl, rfl, fun h => h⟩

theorem wtExpiry : Statement .wtExpiry :=
  ⟨rfl, rfl, fun h => h⟩

theorem signal (clk vcc rst : Bool) : Statement (.signal clk vcc rst) :=
  ⟨rfl, rfl, fun h => h⟩

theorem wtExpiryWaitAtr : Statement .wtExpiryWaitAtr :=
  ⟨rfl, rfl, fun h => h⟩

theorem wtExpiryInAtr : Statement .wtExpiryInAtr :=
  ⟨rfl, rfl, fun h => h⟩

theorem wtExpiryWaitApdu : Statement .wtExpiryWaitApdu :=
  ⟨rfl, rfl, fun h => h⟩

theorem wtExpiryInApdu : Statement .wtExpiryInApdu :=
  ⟨rfl, rfl, fun h => h⟩

theorem wtExpiryInPts : Statement .wtExpiryInPts :=
  ⟨rfl, rfl, fun h => h⟩

theorem signalRstAssert (clk vcc : Bool) : Statement (.signalRstAssert clk vcc) :=
  ⟨rfl, rfl, fun h => h⟩

theorem signalRstRelease (clk : Bool) : Statement (.signalRstRelease clk) :=
  ⟨rfl, rfl, fun h => h⟩

theorem signalVccOff (clk : Bool) : Statement (.signalVccOff clk) :=
  ⟨rfl, rfl, fun h => h⟩

theorem signalClk (clk vcc rst : Bool) : Statement (.signalClk clk vcc rst) :=
  ⟨rfl, rfl, fun h => h⟩

theorem cardInsert (ins : Bool) : Statement (.cardInsert ins) :=
  ⟨rfl, rfl, fun h => h⟩

theorem atrSet (x : List Byte) : Statement (.atrSet x) :=
  ⟨rfl, rfl, fun h => h⟩

theorem apduSegNew (seg : List Byte) : Statement (.apduSegNew seg) :=
  ⟨rfl, rfl, fun h => h⟩

theorem apduSegCont (seg : List Byte) : Statement (.apduSegCont seg) :=
  ⟨rfl, rfl, fun h => h⟩

theorem cardResp (r : List Byte) : Statement (.cardResp r) :=
  ⟨rfl, rfl, fun h => h⟩

theorem statusIn (flags : Flags) : Statement (.statusIn flags) :=
  ⟨rfl, rfl, fun h => h⟩

theorem funcValidF (f : Half) : Statement (.funcValidF f) :=
  ⟨rfl, rfl, fun h => h⟩

theorem funcValidD (d : Byte) : Statement (.funcValidD d) :=
  ⟨rfl, rfl, fun h => h⟩

theorem funcFidiRatio (fidi : Byte) : Statement (.funcFidiRatio fidi) :=
  ⟨rfl, rfl, fun h => h⟩

theorem funcCalcWt (wi : Byte) (fi f : Half) (di d : Byte) : Statement (.funcCalcWt wi fi f di d) :=
  ⟨rfl, rfl, fun h => h⟩

theorem funcClassifyCase (seg : List Byte) : Statement (.funcClassifyCase seg) :=
  ⟨rfl, rfl, fun h => h⟩

theorem funcClassifyPb (ins b : Byte) : Statement (.funcClassifyPb ins b) :=
  ⟨rfl, rfl, fun h => h⟩

theorem funcAtrParse (x : List Byte) : Statement (.funcAtrParse x) :=
  ⟨rfl, rfl, fun h => h⟩

theorem funcAtrBuild (x : List Byte) : Statement (.funcAtrBuild x) :=
  ⟨rfl, rfl, fun h => h⟩

theorem reservedFn (fn : BitVec 3) (rest : BitVec 24) : Statement (.reservedFn fn rest) :=
  ⟨rfl, rfl, fun h => h⟩

theorem reservedKind0 (rest : BitVec 28) : Statement (.reservedKind0 rest) :=
  ⟨rfl, rfl, fun h => h⟩

theorem reservedKind9 (rest : BitVec 28) : Statement (.reservedKind9 rest) :=
  ⟨rfl, rfl, fun h => h⟩

theorem reservedKindB (rest : BitVec 28) : Statement (.reservedKindB rest) :=
  ⟨rfl, rfl, fun h => h⟩

theorem reservedKindC (rest : BitVec 28) : Statement (.reservedKindC rest) :=
  ⟨rfl, rfl, fun h => h⟩

theorem reservedKindD (rest : BitVec 28) : Statement (.reservedKindD rest) :=
  ⟨rfl, rfl, fun h => h⟩

theorem reservedKindE (rest : BitVec 28) : Statement (.reservedKindE rest) :=
  ⟨rfl, rfl, fun h => h⟩

theorem reservedKindF (rest : BitVec 28) : Statement (.reservedKindF rest) :=
  ⟨rfl, rfl, fun h => h⟩

end Sys2Proof.Laws.EventOfRow
end

