-- ==== Sys2Proof/Laws/Wire.lean ====
section
/-! SUPPORT. The wire layout: what a message's bytes are, read back, that only the header of the receive
buffer is read for its length, and that status flags are read back from their wire places. -/

namespace Sys2Proof.Machine

theorem headerSize_pos (w : WireParams) : 0 < headerSize w := by
  unfold headerSize; split <;> omega

theorem lenField_length (w : WireParams) (n : Nat) : (lenField w n).length = headerSize w - 3 := by
  unfold lenField headerSize
  rcases w with ⟨_ | _, _ | _, _, _⟩ <;> rfl

theorem msgBytes_length (w : WireParams) (m : WireMsg) :
    (msgBytes w m).length = headerSize w + m.payload.length := by
  simp only [msgBytes, List.length_append, List.length_cons, List.length_nil, lenField_length]
  unfold headerSize; split <;> omega

/-- The length at the start of a message is the message's, if its field can state it. -/
theorem msgLen_msgBytes (w : WireParams) (m : WireMsg) (rest : List Byte)
    (h : headerSize w + m.payload.length ≤ maxMsgLen w) :
    msgLen w (msgBytes w m ++ rest) = headerSize w + m.payload.length := by
  unfold msgLen msgBytes lenField
  rw [if_pos h]
  rcases w with ⟨_ | _, _ | _, _, _⟩ <;> simp [headerSize, maxMsgLen] at h ⊢ <;> omega

/-- The length is read from the header alone. -/
theorem msgLen_append (w : WireParams) (x y : List Byte) (h : headerSize w ≤ x.length) :
    msgLen w (x ++ y) = msgLen w x := by
  have read : ∀ k, k < headerSize w → (x ++ y).getD k 0#8 = x.getD k 0#8 := by
    intro k hk
    simp [List.getD_eq_getElem?_getD, List.getElem?_append_left (by omega : k < x.length)]
  unfold msgLen
  rcases w with ⟨_ | _, _ | _, _, _⟩ <;> simp only [headerSize] at read ⊢ <;>
    simp only [read 3 (by omega)] <;> simp only [read 4 (by omega)]

/-- The receiver finds the message that stands at the start of its buffer. -/
theorem rxView_msgBytes (w : WireParams) (m : WireMsg) (rest : List Byte)
    (h : headerSize w + m.payload.length ≤ maxMsgLen w) :
    rxView w (msgBytes w m ++ rest) = .message m rest := by
  have whole : (msgBytes w m ++ rest).take (headerSize w + m.payload.length) = msgBytes w m := by
    rw [← msgBytes_length, List.take_left]
  have left : (msgBytes w m ++ rest).drop (headerSize w + m.payload.length) = rest := by
    rw [← msgBytes_length, List.drop_left]
  have body : (msgBytes w m).drop (headerSize w) = m.payload := by
    unfold msgBytes
    rw [List.drop_left']
    simp only [List.length_append, lenField_length, List.length_cons, List.length_nil]
    unfold headerSize; split <;> omega
  unfold rxView
  simp only [msgLen_msgBytes w m rest h, List.length_append, msgBytes_length]
  rw [if_neg (by omega), if_neg (by omega), if_neg (by omega), whole, left, body]
  simp [msgBytes]

theorem mem_all (k : WireType) : k ∈ WireType.all := by cases k <;> decide

@[simp] theorem resetActive_mkFlags (a b c d e : Bool) : resetActive (mkFlags a b c d e) = a := by
  revert a b c d e; decide
@[simp] theorem vccPresent_mkFlags (a b c d e : Bool) : vccPresent (mkFlags a b c d e) = b := by
  revert a b c d e; decide
@[simp] theorem clkActive_mkFlags (a b c d e : Bool) : clkActive (mkFlags a b c d e) = c := by
  revert a b c d e; decide
@[simp] theorem cardInserted_mkFlags (a b c d e : Bool) : cardInserted (mkFlags a b c d e) = d := by
  revert a b c d e; decide
@[simp] theorem rcemuFlag_mkFlags (a b c d e : Bool) : rcemuFlag (mkFlags a b c d e) = e := by
  revert a b c d e; decide

/-- A status word is made of its five flags (rule R22). -/
theorem mkFlags_flags (f : Flags) :
    mkFlags (resetActive f) (vccPresent f) (clkActive f) (cardInserted f) (rcemuFlag f) = f := by
  revert f; decide

/-- A message with the codes of a kind is of that kind (rules R300, R302). -/
theorem kindOf_eq_some (w : WireParams) (h : w.wf) (kind : WireType) (nr : Byte) (x : List Byte) :
    kindOf w ⟨(w.codeOf kind).cls, (w.codeOf kind).typ, nr, x⟩ = some kind := by
  unfold kindOf
  cases found : WireType.all.find? _ with
  | none =>
    have := List.find?_eq_none.mp found kind (mem_all kind)
    simp at this
  | some other =>
    have same := List.find?_some found
    simp only [Bool.and_eq_true, beq_iff_eq] at same
    exact congrArg some (List.inj_on_of_nodup_map h.1 (mem_all other) (mem_all kind)
      (Prod.ext same.1 same.2))

/-- One flag at the place `p`, and nothing elsewhere. -/
theorem testBit_flagAt (b : Bool) (p q : Nat) : (b.toNat <<< p).testBit q = (b && decide (q = p)) := by
  cases b with
  | false => simp
  | true =>
    have one : (true.toNat <<< p) = 2 ^ p := by simp [Nat.shiftLeft_eq]
    rw [one, Nat.testBit_two_pow, Bool.true_and]
    exact decide_eq_decide.mpr eq_comm

/-- Flags at five different places are read back (rules R8, R22). -/
theorem statusOfWire_wireStatus (w : WireParams) (h : w.wf) (f : Flags) :
    statusOfWire w.statusBits (wireStatus w.statusBits f) = f := by
  have places := h.2
  simp only [List.nodup_cons, List.mem_cons, List.not_mem_nil, or_false, not_or] at places
  obtain ⟨⟨h1, h2, h3, h4⟩, ⟨h5, h6, h7⟩, ⟨h8, h9⟩, h10, -⟩ := places
  conv_rhs => rw [← mkFlags_flags f]
  simp only [statusOfWire, wireStatus, Nat.testBit_or, testBit_flagAt, h1, h2, h3, h4, h5, h6, h7, h8, h9,
    h10, Ne.symm h1, Ne.symm h2, Ne.symm h3, Ne.symm h4, Ne.symm h5, Ne.symm h6, Ne.symm h7, Ne.symm h8,
    Ne.symm h9, Ne.symm h10, decide_true, decide_false, Bool.and_true, Bool.and_false, Bool.or_false,
    Bool.false_or]

end Sys2Proof.Machine
end

