-- ==== Sys2Proof/Tests/Slice0.lean ====
section
/-! SUPPORT. Our own tests. Expected values are those of 95_test_vectors.md, named in the comments, or
worked out by hand from the rule named. The last part shows, for every statement with hypotheses, states
and operands that meet them. -/

namespace Sys2Proof.Tests

open Sys2Proof.Machine

set_option Elab.async false

/-! ### States -/

/-- A0 of 95_test_vectors.md: in `WaitApdu` after the ATR 3B 00. -/
def a0 : State := { State.reset with
  status := 6, top := .waitApdu, timer := ⟨true, 9600⟩
  atr := { AtrRegs.cleared with st := .done, idx := 1, buf := [0x3B, 0x00] } }

/-- A8 of 95_test_vectors.md, as far as the tests look: the card declared Fi index 9 and Di index 4. -/
def a8 : State := { a0 with
  timing := ⟨9, 4, 1, 1, 10, 76800, 372⟩, timer := ⟨true, 76800⟩
  atr := { AtrRegs.cleared with
    st := .done, idx := 1, ta1 := some 0x94, buf := [0x3B, 0x10, 0x94] } }

/-- A0 in the phase `t`. -/
def at0 (t : Top) : State := { a0 with top := t }

/-- In `WaitAtr`, no ATR byte read yet. -/
def inWait : State := { a0 with top := .waitAtr, atr := .cleared, timer := ⟨false, 9600⟩ }

/-- In `InAtr` with the registers `r`. -/
def inAtr (r : AtrRegs) : State := { a0 with top := .inAtr, atr := r }

/-- ATR registers in the sub-state `st` of group 1, `y` announced, `k` historical bytes to come. -/
def atr1 (st : AtrState) (y k : Nibble) : AtrRegs :=
  { AtrRegs.cleared with st := st, idx := 1, y := y, k := k, buf := [0x3B, 0x00] }

/-- In `InPts` after A8, the request FF 10 94 7B or its beginning read as `r`. -/
def inPts (r : PpsRegs) : State := { a8 with top := .inPts, pps := r }

/-- The PPS bytes FF 10 94 and what follows. -/
def ff1094 (pck : Option Byte) : PpsBytes := ⟨some 0xFF, some 0x10, some 0x94, none, none, pck⟩

/-- The response half before its check byte, the request's check good or not. -/
def respEnd (ok : Bool) : State :=
  inPts ⟨.resp, .pck, ff1094 (some 0x7B), ff1094 none, 0x7B, ok⟩

/-- The line context of a READ BINARY of two bytes, classified Case 2. -/
def readCtx : ApduCtx := { ApduCtx.cleared with
  hdr := ⟨0x00, 0xB0, 0x00, 0x00, 0x02⟩, apduCase := .case2, le := ⟨0, 2⟩ }

/-- The line context of a SELECT with two data bytes, classified Case 3. -/
def selectCtx : ApduCtx := { ApduCtx.cleared with
  hdr := ⟨0x00, 0xA4, 0x00, 0x00, 0x02⟩, apduCase := .case3, lc := ⟨0, 2⟩ }

/-- In `InApdu` with sub-state `st`, `left` bytes granted and context `c`. -/
def inApdu (st : TpduState) (left : BitVec 32) (c : ApduCtx) : State :=
  { a0 with top := .inApdu, tpdu := ⟨st, left, c⟩ }

/-- A slot at power-on whose bridge has `b`. -/
def withBridge (b : Bridge) : State := { State.reset with bridge := b }

/-- The bridge after the segment 00 A4 00 00 02 3F: one byte owed. -/
def owing : State := withBridge { Bridge.powerOn with
  ctx := { selectCtx with lc := ⟨1, 2⟩, dc := [0x3F] }, valid := true }

/-- The bridge after it forwarded a READ BINARY of two bytes. -/
def forwarded : State := withBridge { Bridge.powerOn with
  ctx := readCtx, valid := true, forwarded := true }

/-- The next state, if there is one. -/
def next? (a : Answer) : Option State :=
  match a with
  | .next t => some t
  | .fault _ => none
  | .refused _ => none

/-- A field of the next state. -/
def got {α : Type} (i : Instr) (s : State) (f : State → α) : Option α := (next? (exec i s)).map f

/-- The records of the next state; the test states hold none before. -/
def out (i : Instr) (s : State) : Option (List Record) := got i s State.outq

/-- The two records of a re-arm (rule R233). -/
def armed (n : BitVec 32) : List Record := [.timerSetWtime n, .timerArm]

/-! ### Ill-formed terms are refused by each check of WellFormed -/

/-- A payload as long as the bound, and one below it. -/
theorem long_payload (n : Nat) : ¬ (List.replicate n (0 : Byte)).length < n := by simp
theorem short_payload (n m : Nat) (h : n < m) : (List.replicate n (0 : Byte)).length < m := by
  simpa using h
theorem test_wf_cla_ff : ¬ (Instr.tpduCla false 0xFF).wf := by decide
theorem test_wf_sw1_60 : ¬ (Instr.tpduPbSw16x false 0).wf := by decide
theorem test_wf_ack_all_60 : ¬ (Instr.tpduPbAckAll false 0x60).wf := by decide
theorem test_wf_ack_one_9F : ¬ (Instr.tpduPbAckOne false 0x9F).wf := by decide
theorem test_wf_other_6C : ¬ (Instr.tpduPbOther false 0x6C).wf := by decide
theorem test_wf_atr_set_long : ¬ (Instr.atrSet (List.replicate 256 0)).wf := long_payload 256
theorem test_wf_seg_new_long : ¬ (Instr.apduSegNew (List.replicate 65536 0)).wf := long_payload 65536
theorem test_wf_seg_cont_long : ¬ (Instr.apduSegCont (List.replicate 65536 0)).wf := long_payload 65536
theorem test_wf_card_resp_long : ¬ (Instr.cardResp (List.replicate 65536 0)).wf := long_payload 65536
theorem test_wf_case_long : ¬ (Instr.funcClassifyCase (List.replicate 65536 0)).wf := long_payload 65536
theorem test_wf_parse_long : ¬ (Instr.funcAtrParse (List.replicate 256 0)).wf := long_payload 256
theorem test_wf_build_long : ¬ (Instr.funcAtrBuild (List.replicate 256 0)).wf := long_payload 256
/-- The terms at the edge of each check are well formed. -/
theorem test_wf_edges :
    (Instr.tpduCla false 0xFE).wf ∧ (Instr.tpduPbSw16x false 1).wf ∧ (Instr.tpduPbAckAll false 0x5F).wf
      ∧ (Instr.tpduPbAckOne false 0x70).wf ∧ (Instr.tpduPbOther false 0xA0).wf
      ∧ (Instr.funcAtrParse []).wf := by decide
theorem test_wf_longest :
    (Instr.atrSet (List.replicate 255 0)).wf ∧ (Instr.apduSegNew (List.replicate 65535 0)).wf :=
  ⟨short_payload 255 256 (by decide), short_payload 65535 65536 (by decide)⟩

/-! ### Decoding: each row's word, written out from rules R80 to R91, and the row it is in a state -/

/-- The row that the word and payload are in the state `s`. -/
def row (w : Word) (x : List Byte) (s : State) : Except DecodeError Instr :=
  (decode ⟨w, x⟩).map (rowOf s)

/-- KIND 1, PE bit 10, BYTE 3B. -/
theorem test_row_lineBytePe : row 0x1000043B [] a0 = .ok (.lineBytePe false false false 0x3B) := by
  decide +kernel
/-- OE bit 9. -/
theorem test_row_lineByteOe : row 0x1000023B [] a0 = .ok (.lineByteOe false false false 0x3B) := by
  decide +kernel
/-- DIR bit 27, FE bit 8. -/
theorem test_row_lineByteFe : row 0x1800013B [] a0 = .ok (.lineByteFe true false false 0x3B) := by
  decide +kernel
/-- all error bits, in Reset. -/
theorem test_row_lineByteReset :
    row 0x1000073B [] State.reset
      = .ok (.lineByteReset false true true true 0x3B) := by
  decide +kernel
/-- WaitAtr with ATR_STATE not WaitTS. -/
theorem test_row_lineByteWaitAtr :
    row 0x1000003B [] (at0 .waitAtr)
      = .ok (.lineByteWaitAtr false 0x3B) := by
  decide +kernel
/-- WaitAtr. -/
theorem test_row_atrTs : row 0x1000003B [] inWait = .ok (.atrTs false 0x3B) := by
  decide +kernel
theorem test_row_atrT0 :
    row 0x1000009A [] (inAtr (atr1 .waitT0 0 0))
      = .ok (.atrT0 false 0x9A) := by
  decide +kernel
theorem test_row_atrTa :
    row 0x10000094 [] (inAtr (atr1 .waitTA 1 0))
      = .ok (.atrTa false 0x94) := by
  decide +kernel
theorem test_row_atrTb :
    row 0x10000022 [] (inAtr (atr1 .waitTB 2 0))
      = .ok (.atrTb false 0x22) := by
  decide +kernel
theorem test_row_atrTc :
    row 0x10000005 [] (inAtr (atr1 .waitTC 4 0))
      = .ok (.atrTc false 0x05) := by
  decide +kernel
/-- DIR = TX. -/
theorem test_row_atrTd : row 0x18000081 [] (inAtr (atr1 .waitTD 8 0)) = .ok (.atrTd true 0x81) := by
  decide +kernel
theorem test_row_atrHist :
    row 0x10000092 [] (inAtr (atr1 .waitHist 0 1))
      = .ok (.atrHist false 0x92) := by
  decide +kernel
theorem test_row_atrTck :
    row 0x1000005A [] (inAtr (atr1 .waitTCK 0 0))
      = .ok (.atrTck false 0x5A) := by
  decide +kernel
/-- no ATR byte rule in Done. -/
theorem test_row_lineByteInAtr :
    row 0x1000005A [] (inAtr (atr1 .done 0 0))
      = .ok (.lineByteInAtr false 0x5A) := by
  decide +kernel
/-- BYTE = FF in WaitApdu. -/
theorem test_row_ppsPtssReq : row 0x100000FF [] a0 = .ok (.ppsPtssReq false) := by
  decide +kernel
/-- V-TPDU-17. -/
theorem test_row_tpduCla : row 0x10000060 [] a0 = .ok (.tpduCla false 0x60) := by
  decide +kernel
/-- request PTSS has no rule in InPts. -/
theorem test_row_lineByteInPts :
    row 0x10000010 [] (inPts .cleared)
      = .ok (.lineByteInPts false 0x10) := by
  decide +kernel
theorem test_row_ppsPts0 :
    row 0x10000010 [] (inPts { PpsRegs.cleared with pos := .pts0 })
      = .ok (.ppsPts0 false 0x10) := by
  decide +kernel
theorem test_row_ppsPts1 :
    row 0x10000094 [] (inPts { PpsRegs.cleared with pos := .pts1 })
      = .ok (.ppsPts1 false 0x94) := by
  decide +kernel
theorem test_row_ppsPts2 :
    row 0x10000002 [] (inPts { PpsRegs.cleared with pos := .pts2 })
      = .ok (.ppsPts2 false 0x02) := by
  decide +kernel
theorem test_row_ppsPts3 :
    row 0x10000003 [] (inPts { PpsRegs.cleared with pos := .pts3 })
      = .ok (.ppsPts3 false 0x03) := by
  decide +kernel
theorem test_row_ppsPckReq :
    row 0x1000007B [] (inPts { PpsRegs.cleared with pos := .pck })
      = .ok (.ppsPckReq false 0x7B) := by
  decide +kernel
theorem test_row_ppsPtssResp :
    row 0x180000FF [] (inPts { PpsRegs.cleared with phase := .resp })
      = .ok (.ppsPtssResp true 0xFF) := by
  decide +kernel
theorem test_row_ppsPckResp : row 0x1000007B [] (respEnd true) = .ok (.ppsPckResp false 0x7B) := by
  decide +kernel
/-- no TPDU rule in Idle. -/
theorem test_row_lineByteInApdu :
    row 0x10000001 [] (inApdu .idle 0 .cleared)
      = .ok (.lineByteInApdu false 0x01) := by
  decide +kernel
theorem test_row_tpduIns :
    row 0x100000B0 [] (inApdu .hdrIns 0 .cleared)
      = .ok (.tpduIns false 0xB0) := by
  decide +kernel
theorem test_row_tpduP1 :
    row 0x10000001 [] (inApdu .hdrP1 0 .cleared)
      = .ok (.tpduP1 false 0x01) := by
  decide +kernel
theorem test_row_tpduP2 :
    row 0x10000002 [] (inApdu .hdrP2 0 .cleared)
      = .ok (.tpduP2 false 0x02) := by
  decide +kernel
theorem test_row_tpduP3 :
    row 0x10000003 [] (inApdu .hdrP3 0 .cleared)
      = .ok (.tpduP3 false 0x03) := by
  decide +kernel
theorem test_row_tpduPbNull :
    row 0x10000060 [] (inApdu .proc 0 readCtx)
      = .ok (.tpduPbNull false) := by
  decide +kernel
/-- SW1 6A. -/
theorem test_row_tpduPbSw16x :
    row 0x1000006A [] (inApdu .proc 0 readCtx)
      = .ok (.tpduPbSw16x false 0xA) := by
  decide +kernel
/-- SW1 90. -/
theorem test_row_tpduPbSw19x :
    row 0x10000090 [] (inApdu .proc 0 readCtx)
      = .ok (.tpduPbSw19x false 0x0) := by
  decide +kernel
/-- INS. -/
theorem test_row_tpduPbAckAll :
    row 0x100000B0 [] (inApdu .proc 0 readCtx)
      = .ok (.tpduPbAckAll false 0xB0) := by
  decide +kernel
/-- INS ^ FF. -/
theorem test_row_tpduPbAckOne :
    row 0x1000004F [] (inApdu .proc 0 readCtx)
      = .ok (.tpduPbAckOne false 0x4F) := by
  decide +kernel
theorem test_row_tpduPbOther :
    row 0x10000012 [] (inApdu .proc 0 readCtx)
      = .ok (.tpduPbOther false 0x12) := by
  decide +kernel
/-- V-TPDU-14: 60 while data is owed. -/
theorem test_row_tpduData :
    row 0x10000060 [] (inApdu .data 1 readCtx)
      = .ok (.tpduData false 0x60) := by
  decide +kernel
theorem test_row_tpduSw2 :
    row 0x10000000 [] (inApdu .sw2 0 readCtx)
      = .ok (.tpduSw2 false 0x00) := by
  decide +kernel
/-- not armed. -/
theorem test_row_wtExpiry : row 0x20000000 [] State.reset = .ok (.wtExpiry) := by
  decide +kernel
theorem test_row_wtExpiryWaitAtr : row 0x20000000 [] (at0 .waitAtr) = .ok (.wtExpiryWaitAtr) := by
  decide +kernel
theorem test_row_wtExpiryInAtr : row 0x20000000 [] (at0 .inAtr) = .ok (.wtExpiryInAtr) := by
  decide +kernel
theorem test_row_wtExpiryWaitApdu : row 0x20000000 [] a0 = .ok (.wtExpiryWaitApdu) := by
  decide +kernel
theorem test_row_wtExpiryInApdu : row 0x20000000 [] (at0 .inApdu) = .ok (.wtExpiryInApdu) := by
  decide +kernel
theorem test_row_wtExpiryInPts : row 0x20000000 [] (at0 .inPts) = .ok (.wtExpiryInPts) := by
  decide +kernel
/-- CLK VCC RST bits 2..0. -/
theorem test_row_signalRstAssert :
    row 0x30000007 [] State.reset
      = .ok (.signalRstAssert true true) := by
  decide +kernel
theorem test_row_signalRstRelease :
    row 0x30000006 [] { State.reset with status := 7 }
      = .ok (.signalRstRelease true) := by
  decide +kernel
theorem test_row_signalVccOff : row 0x30000004 [] a0 = .ok (.signalVccOff true) := by
  decide +kernel
/-- V-PH-12. -/
theorem test_row_signalClk : row 0x30000002 [] a0 = .ok (.signalClk false true false) := by
  decide +kernel
theorem test_row_cardInsert : row 0x40000001 [] a0 = .ok (.cardInsert true) := by
  decide +kernel
theorem test_row_atrSet : row 0x50000002 [0x3B, 0x00] a0 = .ok (.atrSet [0x3B, 0x00]) := by
  decide +kernel
/-- NEW bit 16. -/
theorem test_row_apduSegNew :
    row 0x60010004 [0x00, 0x70, 0x00, 0x00] a0
      = .ok (.apduSegNew [0x00, 0x70, 0x00, 0x00]) := by
  decide +kernel
theorem test_row_apduSegCont : row 0x60000001 [0x3F] a0 = .ok (.apduSegCont [0x3F]) := by
  decide +kernel
theorem test_row_cardResp : row 0x70000002 [0x90, 0x00] a0 = .ok (.cardResp [0x90, 0x00]) := by
  decide +kernel
theorem test_row_statusIn : row 0x8000001E [] a0 = .ok (.statusIn 0x1E) := by
  decide +kernel
/-- V-TIM-1. -/
theorem test_row_funcValidF : row 0xA0000174 [] a0 = .ok (.funcValidF 372) := by
  decide +kernel
/-- V-TIM-1. -/
theorem test_row_funcValidD : row 0xA100000C [] a0 = .ok (.funcValidD 12) := by
  decide +kernel
/-- V-TIM-6. -/
theorem test_row_funcFidiRatio : row 0xA2000094 [] a0 = .ok (.funcFidiRatio 0x94) := by
  decide +kernel
/-- V-TIM-5. -/
theorem test_row_funcCalcWt :
    row 0xA300000A [0x02, 0x00, 0x01, 0x74, 0x08, 0x01] a0
      = .ok (.funcCalcWt 10 512 372 8 1) := by
  decide +kernel
/-- V-CASE-1. -/
theorem test_row_funcClassifyCase :
    row 0xA4000004 [0x00, 0x70, 0x00, 0x00] a0
      = .ok (.funcClassifyCase [0x00, 0x70, 0x00, 0x00]) := by
  decide +kernel
/-- V-TPDU-20. -/
theorem test_row_funcClassifyPb : row 0xA500A45B [] a0 = .ok (.funcClassifyPb 0xA4 0x5B) := by
  decide +kernel
/-- V-ATR-2. -/
theorem test_row_funcAtrParse :
    row 0xA6000002 [0x3B, 0x00] a0
      = .ok (.funcAtrParse [0x3B, 0x00]) := by
  decide +kernel
theorem test_row_funcAtrBuild :
    row 0xA7000004 [0x00, 0x3B, 0x01, 0x00] a0
      = .ok (.funcAtrBuild [0x00, 0x3B, 0x01, 0x00]) := by
  decide +kernel
/-- FN 15. -/
theorem test_row_reservedFn : row 0xAF000001 [] a0 = .ok (.reservedFn 7 1) := by
  decide +kernel
/-- V-FLT-2. -/
theorem test_row_reservedKind0 : row 0x00000000 [] a0 = .ok (.reservedKind0 0) := by
  decide +kernel
/-- V-FLT-2. -/
theorem test_row_reservedKind9 : row 0x90000001 [] a0 = .ok (.reservedKind9 1) := by
  decide +kernel
/-- V-FLT-2. -/
theorem test_row_reservedKindB : row 0xB0000000 [] a0 = .ok (.reservedKindB 0) := by
  decide +kernel
theorem test_row_reservedKindC : row 0xC8000000 [] a0 = .ok (.reservedKindC 0x8000000) := by
  decide +kernel
theorem test_row_reservedKindD : row 0xD0000001 [] a0 = .ok (.reservedKindD 1) := by
  decide +kernel
theorem test_row_reservedKindE : row 0xE0000000 [] a0 = .ok (.reservedKindE 0) := by
  decide +kernel
theorem test_row_reservedKindF : row 0xFFFFFFFF [] a0 = .ok (.reservedKindF 0xFFFFFFF) := by
  decide +kernel
/-- The three event rows that no state selects, since a finer row is always there. -/
theorem test_word_events :
    decode ⟨0x1800063B, []⟩ = .ok (.lineByte true true true false 0x3B)
      ∧ decode ⟨0x30000003, []⟩ = .ok (.signal false true true)
      ∧ encode (.lineByteWaitApdu true 0x80) = ⟨0x18000080, []⟩ := by decide +kernel
/-- The reserved words of V-FLT-2 with a legal KIND, and payloads that do not fit (rule R92). -/
theorem test_words_rejected :
    decode ⟨0x10000800, []⟩ = .error .reservedBits ∧ decode ⟨0x20000001, []⟩ = .error .reservedBits
      ∧ decode ⟨0x30000008, []⟩ = .error .reservedBits
      ∧ decode ⟨0x40000002, []⟩ = .error .reservedBits
      ∧ decode ⟨0x50000002, [0x3B]⟩ = .error .payloadShort
      ∧ decode ⟨0x70000001, [0x90, 0x00]⟩ = .error .payloadLong := by decide +kernel
/-- The host's numbering: the payload follows the word, least significant byte first. -/
theorem test_table_word :
    decodeTableWord 32 0x1000003B = some (.lineByte false false false false 0x3B)
      ∧ decodeTableWord 48 0x003B50000002 = some (.atrSet [0x3B, 0x00])
      ∧ decodeTableWord 32 0x50000002 = some (.atrSet [0, 0]) := by decide +kernel

/-! ### One step of each instruction -/

/-- V-ATR-9. -/
theorem test_line_byte_pe :
    out (.lineBytePe false false false 0x94) (inAtr (atr1 .waitTA 1 0))
      = some [.error (.framing 0x94 true false false)]
    ∧ got (.lineBytePe false false false 0x94) (inAtr (atr1 .waitTA 1 0)) State.atr
      = some (atr1 .waitTA 1 0) := by
  decide +kernel
/-- Rule R211: every set bit is in the info. -/
theorem test_line_byte_oe :
    got (.lineByteOe false false true 0x04) a0 State.lastErr
      = some (some (.framing 0x04 false true true)) := by
  decide +kernel
/-- V-TPDU-15. -/
theorem test_line_byte_fe :
    out (.lineByteFe false false false 0x04) (inApdu .hdrP2 0 .cleared)
      = some [.error (.framing 0x04 false false true)]
    ∧ got (.lineByteFe false false false 0x04) (inApdu .hdrP2 0 .cleared) State.obuf = some [] := by
  decide +kernel
/-- V-PH-15. -/
theorem test_line_byte_reset :
    out (.lineByteReset false true false false 0x3B) State.reset = some [] := by
  decide +kernel
/-- P1 #3. -/
theorem test_line_byte_wait_atr :
    got (.lineByteWaitAtr false 0x3B) inWait State.top = some .inAtr
    ∧ out (.lineByteWaitAtr false 0x3B) inWait = some (armed 9600) := by
  decide +kernel
/-- V-ATR-3: after TS the parser waits for T0. -/
theorem test_atr_ts :
    got (.atrTs false 0x3B) inWait State.atr
      = some { AtrRegs.cleared with st := .waitT0, buf := [0x3B] } := by
  decide +kernel
/-- V-ATR-1: 9A is Y = 9, K = 10. -/
theorem test_atr_t0 :
    (got (.atrT0 false 0x9A) (inAtr (atr1 .waitT0 0 0)) fun t => (t.atr.y, t.atr.k, t.atr.st))
      = some (0x9, 10, .waitTA) := by
  decide +kernel
/-- V-ATR-5, 3B 00. -/
theorem test_atr_t0_ends :
    out (.atrT0 false 0x00) (inAtr { AtrRegs.cleared with st := .waitT0, buf := [0x3B] })
      = some ([.atr [0x3B, 0x00] 2] ++ armed 9600) := by
  decide +kernel
/-- V-ATR-6. -/
theorem test_atr_ta :
    (got (.atrTa false 0x94) (inAtr (atr1 .waitTA 9 10)) fun t => (t.atr.ta1, t.atr.st))
      = some (some 0x94, .waitTD) := by
  decide +kernel
/-- V-ATR-5, 3B 10 18. -/
theorem test_atr_ta_commits :
    got (.atrTa false 0x18) (inAtr (atr1 .waitTA 1 0)) State.timing
      = some ⟨1, 8, 1, 1, 10, 115200, 372⟩ := by
  decide +kernel
/-- V-ATR-5, 3B 10 71. -/
theorem test_atr_ta_invalid :
    (got (.atrTa false 0x71) (inAtr (atr1 .waitTA 1 0)) fun t => (t.timing, t.lastErr))
      = some (.default, some (.timing .invalidF .atr)) := by
  decide +kernel
/-- V-ATR-3: after 3B F0 11 22 the parser waits for TC. -/
theorem test_atr_tb :
    got (.atrTb false 0x22) (inAtr (atr1 .waitTB 0xF 0)) (fun t => t.atr.st) = some .waitTC := by
  decide +kernel
/-- V-ATR-5, 3B 40 05. -/
theorem test_atr_tc :
    (got (.atrTc false 0x05) (inAtr (atr1 .waitTC 4 0)) fun t => (t.timing.wi, t.timing.wt))
      = some (5, 4800) := by
  decide +kernel
/-- V-ATR-5, 3B 40 00. -/
theorem test_atr_tc_zero :
    (got (.atrTc false 0x00) (inAtr (atr1 .waitTC 4 0)) fun t => (t.atr.wi, t.lastErr))
      = some (some 0, some (.timing .invalidWi .atr)) := by
  decide +kernel
/-- V-ATR-2: TD1 = 81 announces TD2 and T=1. -/
theorem test_atr_td :
    (got (.atrTd false 0x81) (inAtr (atr1 .waitTD 8 2)) fun t => (t.atr.idx, t.atr.y, t.atr.tckNeeded))
      = some (2, 8, true) := by
  decide +kernel
/-- Rule R149: the last historical byte. -/
theorem test_atr_hist :
    (got (.atrHist false 0x92) (inAtr (atr1 .waitHist 0 1)) fun t => (t.atr.k, t.top))
      = some (0, .waitApdu) := by
  decide +kernel
/-- Rule R149: one more to come. -/
theorem test_atr_hist_goes_on :
    (got (.atrHist false 0x92) (inAtr (atr1 .waitHist 0 2)) fun t => (t.atr.k, t.top))
      = some (1, .inAtr) := by
  decide +kernel
/-- Rule R150: the value is not checked. -/
theorem test_atr_tck :
    (got (.atrTck false 0x5A) (inAtr (atr1 .waitTCK 0 0)) fun t => (t.atr.st, t.top, t.lastErr))
      = some (.done, .waitApdu, none) := by
  decide +kernel
/-- V-FLT-1. -/
theorem test_atr_overflow :
    got (.atrHist false 0x0F)
      (inAtr { atr1 .waitHist 0 1 with buf := List.replicate 33 0x80 }) State.fault
      = some (some .atrOverflow) := by
  decide +kernel
/-- V-ATR-6. -/
theorem test_line_byte_in_atr :
    got (.lineByteInAtr false 0x94) (inAtr (atr1 .waitTA 9 10)) (fun t => t.atr.st)
      = some .waitTD := by
  decide +kernel
/-- V-PPS-9. -/
theorem test_pps_ptss_req :
    (got (.ppsPtssReq false) a8 fun t => (t.top, t.pps.pos, t.pps.xor, t.obuf))
      = some (.inPts, .pts0, 0xFF, []) := by
  decide +kernel
/-- V-TPDU-17. -/
theorem test_tpdu_cla :
    (got (.tpduCla false 0x60) a0 fun t => (t.top, t.tpdu.st, t.tpdu.ctx.hdr.cla, t.obuf))
      = some (.inApdu, .hdrIns, 0x60, [0x60]) := by
  decide +kernel
/-- Rule R223. -/
theorem test_line_byte_wait_apdu :
    got (.lineByteWaitApdu false 0xFF) a0 State.top = some .inPts
    ∧ got (.lineByteWaitApdu false 0x00) a0 State.top = some .inApdu := by
  decide +kernel
/-- V-PPS-1. -/
theorem test_line_byte_in_pts :
    got (.lineByteInPts false 0x7B) (respEnd true) State.top = some .waitApdu := by
  decide +kernel
/-- V-PPS-7: 70 announces PTS1, PTS2, PTS3. -/
theorem test_pps_pts0 :
    (got (.ppsPts0 false 0x70) (inPts ⟨.req, .pts0, ⟨some 0xFF, none, none, none, none, none⟩,
      .empty, 0xFF, false⟩) fun t => (t.pps.pos, t.pps.xor)) = some (.pts1, 0x8F) := by
  decide +kernel
/-- V-PPS-7. -/
theorem test_pps_pts1 :
    got (.ppsPts1 false 0x94) (inPts ⟨.req, .pts1, ⟨some 0xFF, some 0x70, none, none, none, none⟩,
      .empty, 0x8F, false⟩) (fun t => t.pps.pos) = some .pts2 := by
  decide +kernel
/-- V-PPS-13: the response's own PTS0 = 30 has no PTS3. -/
theorem test_pps_pts2 :
    got (.ppsPts2 false 0x02) (inPts ⟨.resp, .pts2, ff1094 none,
      ⟨some 0xFF, some 0x30, some 0x94, none, none, none⟩, 0x5B, true⟩) (fun t => t.pps.pos)
      = some .pck := by
  decide +kernel
/-- V-PPS-7. -/
theorem test_pps_pts3 :
    (got (.ppsPts3 false 0x00) (inPts ⟨.req, .pts3, ⟨some 0xFF, some 0x70, some 0x94, some 0x00,
      none, none⟩, .empty, 0x1B, false⟩) fun t => (t.pps.pos, t.pps.xor)) = some (.pck, 0x1B) := by
  decide +kernel
/-- V-PPS-1. -/
theorem test_pps_pck_req :
    (got (.ppsPckReq false 0x7B) (inPts ⟨.req, .pck, ff1094 none, .empty, 0x7B, false⟩)
      fun t => (t.pps.phase, t.pps.reqOk, t.outq)) = some (.resp, true, armed 76800) := by
  decide +kernel
/-- V-PPS-3. -/
theorem test_pps_pck_req_bad :
    (got (.ppsPckReq false 0x7A) (inPts ⟨.req, .pck, ff1094 none, .empty, 0x7B, false⟩)
      fun t => (t.pps.reqOk, t.outq))
      = some (false, [.error (.pckMismatch .req)] ++ armed 76800) := by
  decide +kernel
/-- Rule R190. -/
theorem test_pps_ptss_resp :
    (got (.ppsPtssResp false 0xFF) (inPts ⟨.resp, .ptss, ff1094 (some 0x7B), .empty, 0, true⟩)
      fun t => (t.pps.pos, t.pps.xor)) = some (.pts0, 0xFF) := by
  decide +kernel
/-- V-PPS-1. -/
theorem test_pps_pck_resp :
    out (.ppsPckResp false 0x7B) (respEnd true)
      = some ([.pps [0xFF, 0x10, 0x94, 0x7B] [0xFF, 0x10, 0x94, 0x7B], .uartSetFidi 64,
        .fidi 0x94 64] ++ armed 9600) := by
  decide +kernel
/-- V-PPS-4. -/
theorem test_pps_pck_resp_bad :
    out (.ppsPckResp false 0x7C) (respEnd true)
      = some ([.error (.pckMismatch .resp),
        .pps [0xFF, 0x10, 0x94, 0x7B] [0xFF, 0x10, 0x94, 0x7C]] ++ armed 76800) := by
  decide +kernel
/-- V-TPDU-3. -/
theorem test_line_byte_in_apdu :
    got (.lineByteInApdu false 0xAA) (inApdu .data 2 readCtx) (fun t => t.tpdu.ctx.de)
      = some [0xAA] := by
  decide +kernel
/-- V-TPDU-3. -/
theorem test_tpdu_ins :
    (got (.tpduIns false 0xB0) (inApdu .hdrIns 0 .cleared) fun t => (t.tpdu.ctx.hdr.ins, t.tpdu.st))
      = some (0xB0, .hdrP1) := by
  decide +kernel
/-- Rule R253. -/
theorem test_tpdu_p1 :
    (got (.tpduP1 false 0x01) (inApdu .hdrP1 0 .cleared) fun t => (t.tpdu.ctx.hdr.p1, t.tpdu.st))
      = some (1, .hdrP2) := by
  decide +kernel
/-- Rule R254. -/
theorem test_tpdu_p2 :
    (got (.tpduP2 false 0x02) (inApdu .hdrP2 0 .cleared) fun t => (t.tpdu.ctx.hdr.p2, t.tpdu.st))
      = some (2, .hdrP3) := by
  decide +kernel
/-- V-TPDU-8: P3 = 0 means 256. -/
theorem test_tpdu_p3 :
    (got (.tpduP3 false 0x00) (inApdu .hdrP3 0 .cleared)
      fun t => (t.tpdu.ctx.apduCase, t.tpdu.ctx.le)) = some (.case2, ⟨0, 256⟩) := by
  decide +kernel
/-- V-TPDU-1. -/
theorem test_tpdu_p3_case3 :
    (got (.tpduP3 false 0x02) { inApdu .hdrP3 0 .cleared with
      params := { Params.start with lineCase := ⟨.toCard, []⟩ } }
      fun t => (t.tpdu.ctx.apduCase, t.tpdu.ctx.lc)) = some (.case3, ⟨0, 2⟩) := by
  decide +kernel
/-- V-TPDU-2. -/
theorem test_tpdu_pb_null :
    (got (.tpduPbNull false) (inApdu .proc 0 readCtx) fun t => (t.tpdu, t.obuf))
      = some (⟨.proc, 0, readCtx⟩, [0x60]) := by
  decide +kernel
/-- V-TPDU-5. -/
theorem test_tpdu_pb_sw1_6x :
    (got (.tpduPbSw16x false 0xA) (inApdu .proc 0 readCtx) fun t => (t.tpdu.ctx.sw0, t.tpdu.st))
      = some (some 0x6A, .sw2) := by
  decide +kernel
/-- V-TPDU-13: SW1 before ACK_ALL. -/
theorem test_tpdu_pb_sw1_9x :
    (got (.tpduPbSw19x false 0xF) (inApdu .proc 0 { readCtx with hdr := ⟨0, 0x9F, 0, 0, 1⟩ })
      fun t => (t.tpdu.ctx.sw0, t.tpdu.st)) = some (some 0x9F, .sw2) := by
  decide +kernel
/-- V-TPDU-3. -/
theorem test_tpdu_pb_ack_all :
    (got (.tpduPbAckAll false 0xB0) (inApdu .proc 0 readCtx) fun t => (t.tpdu.dataLeft, t.tpdu.st))
      = some (2, .data) := by
  decide +kernel
/-- V-TPDU-9. -/
theorem test_tpdu_pb_ack_all_none :
    got (.tpduPbAckAll false 0xB0) (inApdu .proc 0 { readCtx with le := ⟨2, 2⟩ })
      (fun t => t.tpdu.st) = some .proc := by
  decide +kernel
/-- V-TPDU-4. -/
theorem test_tpdu_pb_ack_one :
    (got (.tpduPbAckOne false 0x4F) (inApdu .proc 0 readCtx) fun t => (t.tpdu.dataLeft, t.tpdu.st))
      = some (1, .data) := by
  decide +kernel
/-- V-TPDU-6. -/
theorem test_tpdu_pb_other :
    (got (.tpduPbOther false 0x12) (inApdu .proc 0 readCtx)
      fun t => (t.tpdu.ctx.sw0, t.lastErr)) = some (some 0x12, some (.protocolDesync 0x12)) := by
  decide +kernel
/-- V-TPDU-7. -/
theorem test_tpdu_pb_other_null :
    (got (.tpduPbOther false 0x12) { inApdu .proc 0 readCtx with
      params := { Params.start with unexpectedPb := .asNull } }
      fun t => (t.tpdu, t.lastErr)) = some (⟨.proc, 0, readCtx⟩, some (.protocolDesync 0x12)) := by
  decide +kernel
/-- V-TPDU-14. -/
theorem test_tpdu_data :
    (got (.tpduData false 0x60) (inApdu .data 1 readCtx) fun t => (t.tpdu.ctx.de, t.tpdu.st))
      = some ([0x60], .proc) := by
  decide +kernel
/-- V-TPDU-19. -/
theorem test_tpdu_data_case3 :
    (got (.tpduData false 0x3F) (inApdu .data 2 selectCtx)
      fun t => (t.tpdu.ctx.dc, t.tpdu.ctx.lc, t.tpdu.dataLeft)) = some ([0x3F], ⟨1, 2⟩, 1) := by
  decide +kernel
/-- V-TPDU-5. -/
theorem test_tpdu_sw2 :
    out (.tpduSw2 false 0x82) (inApdu .sw2 0 { readCtx with sw0 := some 0x6A })
      = some ([.tpduDone { readCtx with sw0 := some 0x6A, sw1 := some 0x82 }] ++ armed 9600) := by
  decide +kernel
/-- V-TPDU-17, V-PH-15. -/
theorem test_line_byte :
    got (.lineByte true false false false 0x60) a0 (fun t => t.tpdu.st) = some .hdrIns
    ∧ out (.lineByte false true false false 0x3B) State.reset = some [] := by
  decide +kernel
/-- V-PH-18. -/
theorem test_obuf_full :
    out (.tpduP2 false 0x00) { inApdu .hdrP2 0 .cleared with
      params := { Params.start with obufSize := 4 }, obuf := [0x00, 0xB0, 0x00] }
      = some ([.data [0x00, 0xB0, 0x00, 0x00] .full] ++ armed 9600) := by
  decide +kernel
/-- V-PH-16. -/
theorem test_wt_expiry :
    got .wtExpiry a0 (fun t => (t.timer.armed, t.outq)) = some (false, [])
    ∧ out .wtExpiry State.reset = some [] := by
  decide +kernel
/-- Rule R226. -/
theorem test_wt_expiry_wait_atr :
    got .wtExpiryWaitAtr (at0 .waitAtr) (fun t => (t.top, t.timer.armed)) = some (.waitAtr, false) := by
  decide +kernel
/-- V-ATR-7. -/
theorem test_wt_expiry_in_atr :
    got .wtExpiryInAtr (inAtr (atr1 .waitTA 9 10)) (fun t => (t.top, t.atr.st))
      = some (.inAtr, .waitTA) := by
  decide +kernel
/-- V-ATR-8. -/
theorem test_wt_expiry_in_atr_abort :
    got .wtExpiryInAtr { inAtr (atr1 .waitTA 9 10) with
      params := { Params.start with wtInAtr := .abortToWaitAtr } } (fun t => (t.top, t.outq))
      = some (.waitAtr, [.uartSetFidi 372, .uartEnable true false]) := by
  decide +kernel
/-- V-PH-17. -/
theorem test_wt_expiry_wait_apdu :
    got .wtExpiryWaitApdu { a0 with obuf := [0x90, 0x00] } (fun t => (t.obuf, t.outq))
      = some ([], [.data [0x90, 0x00] .wtExpiry]) := by
  decide +kernel
/-- V-PH-1. -/
theorem test_wt_expiry_in_apdu :
    got .wtExpiryInApdu { inApdu .data 1 selectCtx with obuf := [0x00, 0xA4] }
      (fun t => (t.top, t.tpdu.st, t.outq)) = some (.waitApdu, .idle, [.data [0x00, 0xA4] .wtExpiry]) := by
  decide +kernel
/-- V-PPS-10. -/
theorem test_wt_expiry_in_pts :
    got .wtExpiryInPts (inPts { PpsRegs.cleared with pos := .pts1 }) (fun t => (t.top, t.pps, t.outq))
      = some (.waitApdu, .cleared, []) := by
  decide +kernel
/-- V-PH-4. -/
theorem test_signal :
    out (.signal true true false) State.reset = some [.change 0x06]
    ∧ got (.signal true true false) State.reset State.top = some .reset := by
  decide +kernel
/-- V-PH-7, V-PH-2. -/
theorem test_signal_rst_assert :
    out (.signalRstAssert false false) a0
      = some [.change 0x01, .uartEnable false false, .timerDisarm]
    ∧ got (.signalRstAssert true true) a8 State.timing = some .default := by
  decide +kernel
/-- V-PH-3. -/
theorem test_signal_rst_release :
    out (.signalRstRelease true) { State.reset with status := 7 }
      = some [.change 0x06, .uartSetFidi 372, .uartEnable true false]
    ∧ got (.signalRstRelease true) { State.reset with status := 7 } State.top = some .waitAtr := by
  decide +kernel
/-- V-CE-1. -/
theorem test_signal_rst_release_card :
    out (.signalRstRelease true) { State.reset with
      status := 7, mode := .cardEmu, atrCfg := [0x3B, 0x00] }
      = some [.change 0x06, .uartSetFidi 372, .uartEnable true true, .sendByte 0x3B, .sendByte 0x00] := by
  decide +kernel
/-- V-PH-8. -/
theorem test_signal_vcc_off :
    out (.signalVccOff true) a0
      = some [.change 0x04, .uartEnable false false, .timerDisarm] := by
  decide +kernel
/-- V-PH-12. -/
theorem test_signal_clk :
    got (.signalClk false true false) a0 (fun t => (t.status, t.top, t.outq))
      = some (0x02, .waitApdu, [.change 0x02]) := by
  decide +kernel
/-- V-PH-14. -/
theorem test_card_insert :
    got (.cardInsert true) a0 (fun t => (t.status, t.outq)) = some (0x0E, [.change 0x0E]) := by
  decide +kernel
/-- V-CE-1, V-CE-7. -/
theorem test_atr_set :
    got (.atrSet [0x3B, 0x00]) State.reset State.atrCfg = some [0x3B, 0x00]
    ∧ got (.atrSet []) { State.reset with atrCfg := [0x3B, 0x00] } State.atrCfg = some [] := by
  decide +kernel
/-- V-CE-6. -/
theorem test_atr_set_malformed :
    got (.atrSet [0x3B, 0x80]) State.reset (fun t => (t.atrCfg, t.lastErr))
      = some ([], some (.transport .atrSetMalformed)) := by
  decide +kernel
/-- P2 #3, V-BR-11. -/
theorem test_apdu_seg_new :
    out (.apduSegNew [0x00, 0xA4, 0x00, 0x00, 0x02, 0x3F]) State.reset = some [.rxMore 1]
    ∧ out (.apduSegNew [0x00, 0xA4, 0x00, 0x00, 0x00, 0x99]) State.reset
      = some [.txToCard [0x00, 0xA4, 0x00, 0x00, 0x00]] := by
  decide +kernel
/-- V-BR-18. -/
theorem test_apdu_seg_new_fatal :
    got (.apduSegNew [0x00, 0xD6, 0x00, 0x00, 0x00, 0x00, 0x00, 0xAA]) State.reset
      (fun t => (t.bridge.fatal, t.bridge.valid, t.lastErr))
      = some (true, false, some (.fatalBridge .zeroLc)) := by
  decide +kernel
/-- P2 #4, V-BR-10. -/
theorem test_apdu_seg_cont :
    out (.apduSegCont [0x00]) owing
      = some [.txToCard [0x00, 0xA4, 0x00, 0x00, 0x02, 0x3F, 0x00]]
    ∧ out (.apduSegCont []) owing = some [.rxMore 1] := by
  decide +kernel
/-- V-BR-19. -/
theorem test_apdu_seg_cont_fatal :
    got (.apduSegCont [0x00]) State.reset (fun t => (t.bridge.fatal, t.lastErr))
      = some (true, some (.fatalBridge .noDataOwed)) := by
  decide +kernel
/-- P2 #7. -/
theorem test_card_resp :
    got (.cardResp [0xAA, 0xBB, 0xCC, 0x90, 0x00]) forwarded (fun t => (t.bridge.ctx.le, t.outq))
      = some (⟨2, 2⟩, [.complete 0x90 0x00 [0xAA, 0xBB]]) := by
  decide +kernel
/-- V-BR-13, V-BR-14. -/
theorem test_card_resp_unexpected :
    out (.cardResp [0x90, 0x00]) owing = some [.error (.transport .unexpectedResponse)]
    ∧ out (.cardResp [0x90]) forwarded = some [.error (.transport .tooShort)] := by
  decide +kernel
/-- V-ST-1. -/
theorem test_status_in :
    out (.statusIn 0x02) State.reset = some [.cardReset .cold]
    ∧ out (.statusIn 0x1E) (withBridge { Bridge.powerOn with prevStatus := 0x1F })
      = some [.cardReset .warm] := by
  decide +kernel
/-- V-TIM-1. -/
theorem test_func_valid_f :
    got (.funcValidF 2048) a0 State.queryPort = some (some (.bool true))
    ∧ got (.funcValidF 0) a0 State.queryPort = some (some (.bool false)) := by
  decide +kernel
/-- V-TIM-1, V-TIM-2. -/
theorem test_func_valid_d :
    got (.funcValidD 20) a0 State.queryPort = some (some (.bool true))
    ∧ got (.funcValidD 3) a0 State.queryPort = some (some (.bool false)) := by
  decide +kernel
/-- V-TIM-8. -/
theorem test_func_fidi_ratio :
    got (.funcFidiRatio 0x23) a0 State.queryPort = some (some (.timing (.ok 139)))
    ∧ got (.funcFidiRatio 0x18) a0 State.queryPort = some (some (.timing (.ok 4464))) := by
  decide +kernel
/-- V-TIM-5, V-TIM-4. -/
theorem test_func_calc_wt :
    got (.funcCalcWt 10 768 512 12 8) a0 State.queryPort = some (some (.timing (.ok 9600)))
    ∧ got (.funcCalcWt 10 372 372 12 16) a0 State.queryPort
      = some (some (.timing (.err .protocolViolation))) := by
  decide +kernel
/-- V-TIM-7. -/
theorem test_func_calc_wt_order :
    got (.funcCalcWt 0 600 373 3 0) a0 State.queryPort
      = some (some (.timing (.err .invalidWi)))
    ∧ got (.funcCalcWt 10 600 372 3 1) a0 State.queryPort
      = some (some (.timing (.err .invalidF))) := by
  decide +kernel
/-- V-CASE-2. -/
theorem test_func_classify_case :
    got (.funcClassifyCase [0x00, 0xA4, 0x04, 0x00, 0x02, 0x3F, 0x00, 0x10]) a0 State.queryPort
      = some (some (.apduCase (.case ⟨.case4, 2, 16, false, 5, 2⟩))) := by
  decide +kernel
/-- V-CASE-1. -/
theorem test_func_classify_case_ext :
    got (.funcClassifyCase [0x00, 0xB0, 0x00, 0x00, 0x00, 0x00, 0x00]) a0 State.queryPort
      = some (some (.apduCase (.case ⟨.case2, 0, 65536, true, 7, 0⟩))) := by
  decide +kernel
/-- V-TPDU-20. -/
theorem test_func_classify_pb :
    got (.funcClassifyPb 0x6F 0x90) a0 State.queryPort = some (some (.pbClass .sw1))
    ∧ got (.funcClassifyPb 0xB0 0x4F) a0 State.queryPort = some (some (.pbClass .ackOne)) := by
  decide +kernel
/-- V-ATR-2. -/
theorem test_func_atr_parse :
    got (.funcAtrParse [0x3B, 0x40, 0x05]) a0 State.queryPort
      = some (some (.parse (.complete ⟨0x3B, 0x40, [⟨1, .tc, 0x05⟩], [], none⟩))) := by
  decide +kernel
/-- V-ATR-3. -/
theorem test_func_atr_parse_trailing :
    got (.funcAtrParse [0x3B, 0x80, 0x01, 0x81, 0x00]) a0 State.queryPort
      = some (some (.parse (.trailing ⟨0x3B, 0x80, [⟨1, .td, 0x01⟩], [], some 0x81⟩ 4))) := by
  decide +kernel
/-- V-ATR-4. -/
theorem test_func_atr_build :
    got (.funcAtrBuild [0x00, 0x3B, 0x01, 0x80, 0x71, 0x01, 0x02, 0x81]) a0 State.queryPort
      = some (some (.build (.bytes [0x3B, 0x80, 0x01, 0x81]))) := by
  decide +kernel
/-- V-ATR-4: TD1 before TA1. -/
theorem test_func_atr_build_ill :
    got (.funcAtrBuild [0x00, 0x3B, 0x01, 0x90, 0x71, 0x00, 0x41, 0x11]) a0 State.queryPort
      = some (some (.build .illFormed)) := by
  decide +kernel
/-- V-FLT-2. -/
theorem test_reserved :
    got (.reservedFn 0 0) a8 State.fault = some (some .illegalEvent)
    ∧ got (.reservedKind0 0) a8 State.fault = some (some .illegalEvent)
    ∧ got (.reservedKind9 0) a8 State.fault = some (some .illegalEvent)
    ∧ got (.reservedKindB 0) a8 State.fault = some (some .illegalEvent)
    ∧ got (.reservedKindC 0) a8 State.fault = some (some .illegalEvent)
    ∧ got (.reservedKindD 0) a8 State.fault = some (some .illegalEvent)
    ∧ got (.reservedKindE 0) a8 State.fault = some (some .illegalEvent)
    ∧ got (.reservedKindF 0) a8 State.fault = some (some .illegalEvent) := by
  decide +kernel
/-- P5 #37. -/
theorem test_faulted_takes_no_step :
    out (.signal true true true) { a0 with fault := some .atrOverflow } = some []
    ∧ got (.signal true true true) { a0 with fault := some .atrOverflow } State.top = some .waitApdu := by
  decide +kernel
/-- P6 #3. -/
theorem test_stopped_bridge :
    got (.statusIn 0x02) (withBridge { Bridge.powerOn with fatal := true })
      (fun t => (t.bridge.prevStatus, t.outq)) = some (0, []) := by
  decide +kernel

/-! ### Codes, steps, slots and the wire -/

/-- The numeric codes of rule R337. -/
theorem test_error_codes :
    errCode (.timing .protocolViolation .pps) = 1
      ∧ errSubCode (.timing .protocolViolation .pps) = some 4 ∧ stageCode .pps = 1
      ∧ errCode (.framing 0x02 true false true) = 2
      ∧ errSubCode (.framing 0x02 true false true) = some 0x500
      ∧ errCode (.protocolDesync 0x12) = 3 ∧ errSubCode (.transport .atrSetMalformed) = some 6
      ∧ errSubCode (.fatalBridge .noOutcome) = some 4 ∧ errCode (.pckMismatch .resp) = 6 := by
  decide +kernel
/-- P5: the reserved word of a step is the model fault; a payload that does not fit is refused. -/
theorem test_step_reserved :
    (next? (step { a0 with inq := [⟨0x10000800, []⟩] })).map State.fault
        = some (some .illegalEvent)
      ∧ next? (step { a0 with inq := [⟨0x50000001, []⟩] }) = none
      ∧ next? (step State.reset) = none := by decide +kernel
/-- A step consumes its event. -/
theorem test_step :
    (next? (step (a0.withFetchWord 32 0x40000001))).map (fun t => (t.status, t.inq)) = some (0x0E, []) := by
  decide +kernel
/-- A short message and a long one (rules R66, R300, R301). -/
theorem test_receive :
    msgBytes { Params.start.wire with lenBytes := .two, lenOrder := .little } ⟨1, 2, 3, [0xAA]⟩
        = [1, 2, 3, 6, 0, 0xAA]
      ∧ rxView Params.start.wire [1, 2, 3, 5, 0xAA, 0xBB] = .message ⟨1, 2, 3, [0xAA]⟩ [0xBB]
      ∧ rxView Params.start.wire [1, 2, 3, 3, 0xAA] = .badLen
      ∧ rxView Params.start.wire [1, 2, 3, 9, 0xAA] = .wait := by decide +kernel
/-- The record `Change` goes out as the class and type of its mode, with its slot's number; `TxToCard` does
not cross the transport (rules R70, R302, R344). -/
theorem test_record_message (c : WireCodec Params.start.wire) :
    (recordMsg Params.start.wire c .cardEmu 5 (.change 3)).map (fun m => (m.cls, m.typ, m.slot))
        = some (2, 1, 5)
      ∧ (recordMsg Params.start.wire c .sniff 5 (.change 3)).map (fun m => (m.cls, m.typ))
        = some (1, 1)
      ∧ recordMsg Params.start.wire c .sniff 5 (.txToCard [0x00]) = none := ⟨rfl, rfl, rfl⟩
/-- Contents of a record and of a message (rule R302). -/
theorem test_wire_content :
    recordContent Params.start.wire (.rxMore 2) = some (.request 2)
      ∧ contentEvent Params.start.wire .cardemRxData (.segment true [0x00]) = some (.apduSegNew [0x00])
      ∧ contentEvent Params.start.wire .cardAnswer (.cardAnswer [0x90, 0x00])
        = some (.cardResp [0x90, 0x00])
      ∧ wireDir .cardemAtrSet = .toDevice := by decide +kernel
/-- A bad length is reported by the slot its header names, and not by a faulted one (rules R301, R336,
R344). -/
theorem test_receiver_reports (c : WireCodec Params.start.wire) :
    (receive Params.start.wire c [1, 2, 1, 3] ⟨.toDevice, [], [], [a0, a0]⟩).slots.map State.lastErr
        = [none, some (.transport .badMsgLen)]
      ∧ (receive Params.start.wire c [1, 2, 0, 4]
          ⟨.toDevice, [], [], [{ a0 with fault := some .illegalEvent }]⟩).slots.map State.lastErr
        = [none] := ⟨rfl, rfl⟩
/-- A status message of the host side brings its flags, whatever the payload layout (rules R22, R302). -/
theorem test_status_message (c : WireCodec Params.start.wire) :
    msgEvent Params.start.wire c .toHost .cardemStatus (c.enc .cardemStatus (.status 0x02))
      = some (.statusIn 0x02) := by
  rw [msgEvent, if_pos (by decide), c.dec_event (.statusIn 0x02) _ (.status 0x02) (by decide) rfl rfl]
  decide
/-- The status word at other wire places and back (rule R22). -/
theorem test_wire_status :
    wireStatus ⟨4, 3, 2, 1, 0⟩ 0x03 = 0x18 ∧ statusOfWire ⟨4, 3, 2, 1, 0⟩ 0x18 = 0x03 := by
  decide +kernel


/-! ### Witnesses: states and operands that meet the hypotheses of each statement, clause by clause -/

/-- A0 meets the invariant. -/
theorem witness_inv_a0 : Inv a0 :=
  ⟨by decide, rfl, by decide, by decide +kernel, by decide, by decide, by decide, by decide,
    ⟨by decide, .inl rfl⟩, by decide, by decide +kernel, by decide +kernel⟩
/-- A state in `InApdu` with data owed meets the invariant. -/
theorem witness_inv_data : Inv (inApdu .data 2 readCtx) :=
  ⟨by decide, rfl, by decide, by decide +kernel, by decide, by decide, by decide, by decide,
    ⟨by decide, .inl rfl⟩, by decide, by decide +kernel, by decide +kernel⟩
/-- A state in `InPts` at the response's check byte meets the invariant. -/
theorem witness_inv_resp : Inv (respEnd true) :=
  ⟨by decide, rfl, by decide, by decide +kernel, by decide, by decide, by decide, by decide,
    ⟨by decide, .inl rfl⟩, by decide +kernel, by decide +kernel, by decide +kernel⟩
/-- A state in `InAtr` one byte before the buffer is full meets the invariant. -/
theorem witness_inv_atr :
    Inv (inAtr { atr1 .waitHist 0 1 with buf := List.replicate 32 0x80 }) :=
  ⟨by decide, rfl, by decide, by decide +kernel, by decide, by decide, by decide, by decide +kernel,
    ⟨by decide, .inl rfl⟩, by decide, by decide +kernel, by decide +kernel⟩

theorem witness_EncodedRowDecodesToItsEvent : (Instr.tpduPbSw16x true 15).wf := by decide
theorem witness_DecodedEventHasOneSpelling :
    decode ⟨0x500000FF, List.replicate 255 0⟩ = .ok (.atrSet (List.replicate 255 0)) := by
  decide +kernel
theorem witness_ReservedBitsAreRejected :
    (0x10000800 : Word) &&& reservedMask 0x10000800 ≠ 0
      ∧ (0x18000400 : Word) &&& reservedMask 0x18000400 = 0 := by decide
/-- A state in `InAtr` one byte before the buffer is full meets the invariant. -/
theorem witness_inv_full :
    Inv (inAtr { atr1 .waitHist 0 1 with buf := List.replicate 33 0x80 }) :=
  ⟨by decide, rfl, by decide, by decide +kernel, by decide, by decide, by decide, by decide +kernel,
    ⟨by decide, .inl rfl⟩, by decide, by decide +kernel, by decide +kernel⟩
/-- One event for each clause. -/
theorem witness_StepRunsTheDecodedEvent :
    decode ⟨0x20000000, []⟩ = .ok .wtExpiry ∧ decode ⟨0x20000001, []⟩ = .error .reservedBits
      ∧ a0.fault = none ∧ decode ⟨0x50000001, []⟩ = .error .payloadShort
      ∧ decode ⟨0x50000000, [0x3B]⟩ = .error .payloadLong
      ∧ decodeTableWord 32 0x20000000 = some .wtExpiry := by decide +kernel
/-- States in the phases, and events, of each clause; a byte of each procedure class. -/
theorem witness_PhaseVectorSelectsARow :
    rowOf State.reset (.lineByte true true true true 0xFF) = .lineByteReset true true true true 0xFF
      ∧ rowOf a0 (.lineByte false true true false 0) = .lineBytePe false true false 0
      ∧ rowOf inWait (.lineByte true false false false 0x3B) = .atrTs true 0x3B
      ∧ (∀ st ∈ [AtrState.waitT0, .waitTA, .waitTB, .waitTC, .waitTD, .waitHist, .waitTCK],
          rowOf (inAtr (atr1 st 0 0)) (.lineByte false false false false 7) = atrRowOf st false 7)
      ∧ rowOf a0 (.lineByte true false false false 0xFF) = .ppsPtssReq true
      ∧ rowOf a0 (.lineByte true false false false 0xFE) = .tpduCla true 0xFE
      ∧ rowOf (respEnd true) (.lineByte false false false false 0) = .ppsPckResp false 0
      ∧ (∀ p ∈ [PpsPos.ptss, .pts0, .pts1, .pts2, .pts3, .pck], ∀ h ∈ [PpsPhase.req, .resp],
          rowOf { at0 .inPts with pps := { PpsRegs.cleared with phase := h, pos := p } }
            (.lineByte false false false false 0) = ppsRowOf h p false 0)
      ∧ (∀ st ∈ [TpduState.hdrIns, .hdrP1, .hdrP2, .hdrP3, .data, .sw2],
          rowOf (inApdu st 0 readCtx) (.lineByte false false false false 0x60)
            = tpduRowOf st readCtx.hdr.ins false 0x60)
      ∧ (∀ b ∈ [0x60#8, 0x61#8, 0x90#8, readCtx.hdr.ins, ~~~ readCtx.hdr.ins, 0#8],
          rowOf (inApdu .proc 0 readCtx) (.lineByte false false false false b)
            = procRowOf readCtx.hdr.ins false b)
      ∧ ackByte readCtx.hdr.ins ∧ ackByte (~~~ readCtx.hdr.ins) ∧ ackByte 0
      ∧ rowOf (at0 .inPts) .wtExpiry = .wtExpiryInPts
      ∧ rowOf { State.reset with status := 1 } (.signal true true false) = .signalRstRelease true
      ∧ rowOf a0 (.signal false true false) = .signalClk false true false := by decide +kernel
theorem witness_PowerOnMeetsTheInvariant :
    Params.start.wf ∧ { Params.start with atrMax := 2, obufSize := 1 }.wf
      ∧ { Params.start with atrMax := 255 }.wf := by decide
theorem witness_StepKeepsTheInvariant :
    Inv { a0 with inq := [⟨0x100000FF, []⟩] }
      ∧ (next? (step { a0 with inq := [⟨0x100000FF, []⟩] })).isSome = true :=
  ⟨witness_inv_a0, by decide +kernel⟩
theorem witness_EveryEventCompletesUnderTheInvariant : Inv (inApdu .data 2 readCtx) :=
  witness_inv_data
theorem witness_FaultedSlotTakesNoStep : { a0 with fault := some .illegalEvent }.fault ≠ none := by
  decide
theorem witness_ReservedWordsAreIllegalEvents : a8.fault = none := by decide
/-- A change of `TOP` for each row of the table. -/
theorem witness_TopChangesOnlyByTheTable :
    got (.signal true true true) a0 State.top = some .reset
      ∧ got (.signal true true false) { State.reset with status := 1 } State.top = some .waitAtr
      ∧ got (.lineByte true false false false 0x3B) inWait State.top = some .inAtr
      ∧ got (.lineByte false false false false 0x5A) (inAtr (atr1 .waitTCK 0 0)) State.top
        = some .waitApdu
      ∧ got (.lineByte false false false false 0xFF) a0 State.top = some .inPts
      ∧ got (.lineByte false false false false 0xFE) a0 State.top = some .inApdu
      ∧ got (.lineByte false false false false 0x00) (inApdu .sw2 0 readCtx) State.top = some .waitApdu
      ∧ got (.lineByte false false false false 0x7B) (respEnd true) State.top = some .waitApdu
      ∧ got .wtExpiry { at0 .inAtr with params := { Params.start with wtInAtr := .abortToWaitAtr } }
        State.top = some .waitAtr
      ∧ got .wtExpiry (at0 .inApdu) State.top = some .waitApdu
      ∧ got .wtExpiry (at0 .inPts) State.top = some .waitApdu := by decide +kernel
theorem witness_FramingErrorIsReportedOnly : a0.fault = none ∧ a0.top ≠ .reset := by decide
theorem witness_LineByteInResetIsIgnored : State.reset.top = .reset := by decide
/-- A state for each clause: the ATR buffer with its last place free, and full. -/
theorem witness_LineByteCompletes :
    Inv (inAtr { atr1 .waitHist 0 1 with buf := List.replicate 32 0x80 })
      ∧ Inv (inAtr { atr1 .waitHist 0 1 with buf := List.replicate 33 0x80 })
      ∧ (inAtr { atr1 .waitHist 0 1 with buf := List.replicate 33 0x80 }).atr.buf.length
        = a0.params.atrMax
      ∧ a0.fault = none ∧ (at0 .inAtr).top ≠ .reset :=
  ⟨witness_inv_atr, witness_inv_full, by decide, by decide, by decide⟩
/-- The buffer with its last place free. -/
theorem witness_FirstByteStartsTheAtr :
    inWait.fault = none ∧ inWait.top = .waitAtr ∧ inWait.atr.buf.length ≠ inWait.params.atrMax
      ∧ { AtrRegs.cleared with buf := List.replicate 32 0 }.buf.length ≠ Params.start.atrMax := by
  decide
/-- A state for each of the seven byte rules. -/
theorem witness_AtrBytesAreRead :
    ∀ st ∈ [AtrState.waitT0, .waitTA, .waitTB, .waitTC, .waitTD, .waitHist, .waitTCK],
      (inAtr (atr1 st 0 0)).fault = none ∧ (inAtr (atr1 st 0 0)).top = .inAtr
        ∧ (inAtr (atr1 st 0 0)).atr.st = st
        ∧ (inAtr (atr1 st 0 0)).atr.buf.length ≠ (inAtr (atr1 st 0 0)).params.atrMax
        ∧ st ≠ .waitTS ∧ st ≠ .done
        ∧ (inAtr { atr1 st 0 0 with buf := List.replicate 33 0 }).atr.buf.length
            = (inAtr (atr1 st 0 0)).params.atrMax := by decide
theorem witness_InAtrDispatchesOnTheSubState :
    (inAtr (atr1 .waitTCK 0 0)).fault = none ∧ (inAtr (atr1 .waitTCK 0 0)).top = .inAtr
      ∧ (inAtr (atr1 .waitTCK 0 0)).atr.st ≠ .done
      ∧ (inAtr (atr1 .waitTCK 0 0)).atr.buf.length ≠ Params.start.atrMax := by decide
/-- Both phases: the full buffer, and a buffer that admits no byte at all. -/
theorem witness_AtrOverflowReplacesTheEvent :
    (inAtr { atr1 .waitHist 0 1 with buf := List.replicate 33 0 }).atr.buf.length = Params.start.atrMax
      ∧ (inAtr { atr1 .waitHist 0 1 with buf := List.replicate 33 0 }).atr.st ≠ .done
      ∧ { inWait with params := { Params.start with atrMax := 0 } }.atr.buf.length = 0
      ∧ { inWait with params := { Params.start with atrMax := 0 } }.top = .waitAtr := by decide
theorem witness_AtrCommitNeverViolatesTheProtocol :
    calcWt ⟨0, 0, 0, 0, 0, 255⟩ 255 (fiOf 13) (diOf ⟨0, 0, 0, 0, 0, 255⟩ 15) 372#16 1#8
      = .ok 312120000 := by decide +kernel
theorem witness_AtrParseAndBuildAreInverse :
    atrWf 2 ⟨0x3B, 0x00, [], [], none⟩ = true
      ∧ atrParse Params.start [0x3B, 0x40, 0x05] = .complete ⟨0x3B, 0x40, [⟨1, .tc, 0x05⟩], [], none⟩
      ∧ atrParse Params.start [0x3B, 0x00, 0x00] = .trailing ⟨0x3B, 0x00, [], [], none⟩ 2 := by
  decide +kernel
theorem witness_AtrSetStoresCompleteAtrs :
    a0.fault = none ∧ (∃ a, atrParse a0.params [0x3B, 0x00] = .complete a)
      ∧ ([0x3B] : List Byte) ≠ [] ∧ ∀ a, atrParse a0.params [0x3B] ≠ .complete a :=
  ⟨rfl, ⟨_, rfl⟩, by decide, fun a h => by cases h⟩
theorem witness_WaitApduEntersPpsOrTpdu :
    a0.fault = none ∧ a0.top = .waitApdu ∧ (0xFE : Byte) ≠ 0xFF#8 ∧ (0x00 : Byte) ≠ 0xFF#8 := by decide
/-- A state for each of the five byte rules. -/
theorem witness_PpsBytesAreRead :
    (inPts ⟨.req, .pts0, ⟨some 0xFF, none, none, none, none, none⟩, .empty, 0xFF, false⟩).pps.pos = .pts0
      ∧ (phaseBytes ⟨.req, .pts1, ⟨some 0xFF, some 0x70, none, none, none, none⟩, .empty, 0x8F,
          false⟩).pts0 = some 0x70
      ∧ (phaseBytes ⟨.resp, .pts2, ff1094 none, ff1094 none, 0x5B, true⟩).pts0 = some 0x10
      ∧ (inPts { PpsRegs.cleared with pos := .pts3 }).pps.pos = .pts3
      ∧ (inPts { PpsRegs.cleared with phase := .resp }).pps.phase = .resp
      ∧ (inPts { PpsRegs.cleared with phase := .resp }).pps.pos = .ptss
      ∧ (inPts .cleared).fault = none ∧ (inPts .cleared).top = .inPts := by decide
theorem witness_PpsRequestEnds :
    (inPts ⟨.req, .pck, ff1094 none, .empty, 0x7B, false⟩).fault = none
      ∧ (inPts ⟨.req, .pck, ff1094 none, .empty, 0x7B, false⟩).top = .inPts
      ∧ (inPts ⟨.req, .pck, ff1094 none, .empty, 0x7B, false⟩).pps.phase = .req
      ∧ (inPts ⟨.req, .pck, ff1094 none, .empty, 0x7B, false⟩).pps.pos = .pck := by decide
/-- The bad check byte, the exchange without a commit, the commit, and the commit that fails. -/
theorem witness_PpsResponseCommits :
    (respEnd true).fault = none ∧ (respEnd true).top = .inPts ∧ (respEnd true).pps.phase = .resp
      ∧ (respEnd true).pps.pos = .pck ∧ (respEnd true).pps.xor ^^^ 0x7C#8 ≠ 0
      ∧ (respEnd true).pps.xor ^^^ 0x7B#8 = 0 ∧ (respEnd false).pps.reqOk = false
      ∧ (respEnd true).pps.reqOk = true ∧ (respEnd true).pps.resp.pts1 = some 0x94
      ∧ calcWt a8.params.diTail a8.timing.wi (fiOf a8.timing.capFi)
          (diOf a8.params.diTail a8.timing.capDi) (fiOf (hiNibble 0x94))
          (diOf a8.params.diTail (loNibble 0x94)) = .ok 9600
      ∧ calcWt a0.params.diTail a0.timing.wi (fiOf a0.timing.capFi)
          (diOf a0.params.diTail a0.timing.capDi) (fiOf (hiNibble 0x94))
          (diOf a0.params.diTail (loNibble 0x94)) = .err .protocolViolation := by decide +kernel
theorem witness_InPtsDispatchesOnThePosition :
    (respEnd true).fault = none ∧ (respEnd true).top = .inPts ∧ ppsInv (respEnd true) := by
  decide +kernel
theorem witness_NegotiationNeverExceedsCapability :
    Inv (respEnd true) ∧ got (.lineByte false false false false 0x7B) (respEnd true) State.timing
      = some ⟨9, 4, 9, 4, 10, 9600, 64⟩ :=
  ⟨witness_inv_resp, by decide +kernel⟩
/-- A value for each clause on the errors, in the order of the checks. -/
theorem witness_TimingQueriesAnswer :
    a0.fault = none ∧ validF 371 = false ∧ validF 372 = true ∧ validF 2048 = true
      ∧ validD a0.params.diTail 3 = false ∧ validD a0.params.diTail 64 = true
      ∧ (512 : Half).toNat < (558 : Half).toNat ∧ (12 : Byte).toNat < (16 : Byte).toNat := by
  decide +kernel
theorem witness_TpduHeaderIsRead :
    ∀ st ∈ [TpduState.hdrIns, .hdrP1, .hdrP2, .hdrP3], (inApdu st 0 .cleared).fault = none
      ∧ (inApdu st 0 .cleared).top = .inApdu ∧ (inApdu st 0 .cleared).tpdu.st = st := by decide
theorem witness_NullWaitsAndSw1Ends :
    (inApdu .proc 0 readCtx).fault = none ∧ (inApdu .proc 0 readCtx).top = .inApdu
      ∧ (inApdu .proc 0 readCtx).tpdu.st = .proc ∧ (1 : Nibble) ≠ 0 := by decide
/-- INS and its complement, with data and with none remaining. -/
theorem witness_AcknowledgeGrantsData :
    ackByte 0xB0 ∧ (0xB0 : Byte) = readCtx.hdr.ins ∧ ackByte 0x4F
      ∧ (0x4F : Byte) = ~~~ readCtx.hdr.ins ∧ remaining readCtx = some 2
      ∧ remaining { readCtx with le := ⟨2, 2⟩ } = some 0 := by decide
theorem witness_UnexpectedProcedureByte :
    ackByte 0x12 ∧ (0x12 : Byte) ≠ readCtx.hdr.ins ∧ (0x12 : Byte) ≠ ~~~ readCtx.hdr.ins := by decide
/-- Both sides of the exchange; the last byte of a burst and one before it. -/
theorem witness_TpduDataIsStored :
    (inApdu .data 1 readCtx).fault = none ∧ (inApdu .data 1 readCtx).top = .inApdu
      ∧ (inApdu .data 1 readCtx).tpdu.st = .data ∧ readCtx.apduCase = .case2
      ∧ selectCtx.apduCase = .case3 ∧ (inApdu .data 1 readCtx).tpdu.dataLeft - 1 = 0 := by decide
theorem witness_Sw2CompletesTheTpdu :
    (inApdu .sw2 0 readCtx).fault = none ∧ (inApdu .sw2 0 readCtx).top = .inApdu
      ∧ (inApdu .sw2 0 readCtx).tpdu.st = .sw2 := by decide
theorem witness_InApduDispatchesOnTheSubState :
    (inApdu .data 2 readCtx).fault = none ∧ (inApdu .data 2 readCtx).top = .inApdu
      ∧ tpduInv (inApdu .data 2 readCtx) := by decide +kernel
theorem witness_RepeatedNullChangesNoTpduRegister :
    { inApdu .proc 0 readCtx with inq := List.replicate 3 ⟨0x10000060, []⟩ }.inq
      = List.replicate 3 ⟨0x10000060, []⟩ ++ [] ∧ (inApdu .proc 0 readCtx).tpdu.st = .proc
      ∧ (inApdu .proc 0 readCtx).fault = none ∧ (inApdu .proc 0 readCtx).top = .inApdu := by decide
/-- The buffer with its last place free. -/
theorem witness_OutboundBufferLosesNoByte :
    { a0 with obuf := List.replicate 63 0 }.obuf.length < a0.params.obufSize := by decide
theorem witness_LateExpiryIsDropped : State.reset.timer.armed = false := by decide
/-- Every phase with its timer armed, and both values of `P_WT_IN_ATR`. -/
theorem witness_AdmittedExpiryActsByPhase :
    (∀ t ∈ [Top.waitAtr, .inAtr, .waitApdu, .inApdu, .inPts], (at0 t).fault = none
      ∧ (at0 t).timer.armed = true ∧ (at0 t).top = t)
      ∧ (at0 .inAtr).params.wtInAtr = .ignore
      ∧ { Params.start with wtInAtr := .abortToWaitAtr }.wtInAtr = .abortToWaitAtr := by decide
theorem witness_ResetAssertionAndVccLossEnterReset :
    a0.fault = none ∧ a0.top ≠ .reset ∧ State.reset.fault = none ∧ State.reset.top = .reset := by decide
theorem witness_ResetReleaseEntersWaitAtr :
    resetActive { State.reset with status := 1 }.status = true
      ∧ { State.reset with status := 1 }.top = .reset ∧ resetActive State.reset.status = false
      ∧ a0.top ≠ .reset ∧ a0.fault = none ∧ State.reset.fault = none := by decide
theorem witness_SignalIsRecordedAndNeverAnError : a0.fault = none := by decide
theorem witness_CardInsertIsRecordedOnly : a0.fault = none := by decide
/-- A segment at each boundary of the length rows. -/
theorem witness_SegmentIsClassifiedByItsLength :
    classifyCase [0, 0, 0] = .malformed .tooShort
      ∧ classifyCase [0, 0, 0, 0] = .case ⟨.case1, 0, 0, false, 4, 0⟩
      ∧ classifyCase [0, 0, 0, 0, 255] = .case ⟨.case2, 0, 255, false, 5, 0⟩
      ∧ classifyCase [0, 0, 0, 0, 1, 9] = .case ⟨.case3, 1, 0, false, 5, 1⟩
      ∧ classifyCase [0, 0, 0, 0, 2, 9, 9] = .case ⟨.case3, 2, 0, false, 5, 2⟩
      ∧ classifyCase [0, 0, 0, 0, 1, 9, 0] = .case ⟨.case4, 1, 256, false, 5, 1⟩
      ∧ classifyCase [0, 0, 0, 0, 1, 9, 9, 9] = .malformed .lengthMismatch
      ∧ classifyCase [0, 0, 0, 0, 0, 0, 1] = .case ⟨.case2, 0, 1, true, 7, 0⟩
      ∧ classifyCase [0, 0, 0, 0, 0, 0, 0, 9] = .malformed .zeroLc
      ∧ classifyCase [0, 0, 0, 0, 0, 0, 1, 9] = .case ⟨.case3, 1, 0, true, 7, 1⟩
      ∧ classifyCase [0, 0, 0, 0, 0, 0, 1, 9, 9] = .malformed .lengthMismatch
      ∧ classifyCase [0, 0, 0, 0, 0, 0, 1, 9, 1, 0] = .case ⟨.case4, 1, 256, true, 7, 1⟩
      ∧ classifyCase [0, 0, 0, 0, 0, 0, 1, 9, 1, 0, 0] = .malformed .lengthMismatch := by
  decide +kernel
theorem witness_ByteQueriesAnswer :
    a0.fault = none ∧ taggedAtr [0x00] = none
      ∧ taggedAtr [0x00, 0x3B, 0x01, 0x00] = some ⟨0x3B, 0x00, [], [], none⟩
      ∧ atrWf 33 ⟨0x3B, 0x00, [], [], none⟩ = true ∧ atrWf 33 ⟨0x3B, 0x20, [], [], none⟩ = false := by
  decide +kernel
/-- The three malformed segments, a segment with data missing and a whole one. -/
theorem witness_NewSegmentStartsTheApdu :
    State.reset.fault = none ∧ State.reset.bridge.fatal = false
      ∧ classifyCase [] = .malformed .tooShort
      ∧ classifyCase [0, 0, 0, 0, 1, 9, 9, 9] = .malformed .lengthMismatch
      ∧ classifyCase [0, 0, 0, 0, 0, 0, 0, 9] = .malformed .zeroLc
      ∧ classifyCase [0, 0xA4, 0, 0, 2, 0x3F] = .case ⟨.case3, 2, 0, false, 5, 1⟩ ∧ min 1 2 < 2
      ∧ classifyCase [0, 0xA4, 0, 0, 2, 0x3F, 0] = .case ⟨.case3, 2, 0, false, 5, 2⟩
      ∧ min 2 2 = 2 := by decide +kernel
/-- None owed, one owed and none brought, and the one owed brought. -/
theorem witness_ContinuationSegmentAddsData :
    State.reset.bridge.valid = false ∧ forwarded.bridge.forwarded = true ∧ owing.fault = none
      ∧ owing.bridge.fatal = false ∧ owing.bridge.valid = true ∧ owing.bridge.forwarded = false
      ∧ owing.bridge.ctx.lc.tot.toNat - owing.bridge.ctx.lc.cur.toNat = 1
      ∧ min ([] : List Byte).length 1 < 1 ∧ min [(0x00 : Byte)].length 1 = 1
      ∧ owing.bridge.ctx.apduCase ≠ .unclassified := by decide
theorem witness_CardAnswerCompletesTheApdu :
    forwarded.fault = none ∧ forwarded.bridge.fatal = false ∧ [(0x90 : Byte)].length < 2
      ∧ 2 ≤ [(0x90 : Byte), 0x00].length ∧ owing.bridge.forwarded = false
      ∧ [(0x90 : Byte), 0x00] = [] ++ [0x90, 0x00] ∧ forwarded.bridge.valid = true
      ∧ forwarded.bridge.forwarded = true ∧ forwarded.bridge.ctx.sw0 = none
      ∧ forwarded.bridge.ctx.lc.tot.toNat ≤ forwarded.bridge.ctx.lc.cur.toNat := by decide
theorem witness_StatusReportTriggersCardReset :
    State.reset.fault = none ∧ State.reset.bridge.fatal = false := by decide
theorem witness_StoppedBridgeStaysStopped :
    (withBridge { Bridge.powerOn with fatal := true }).bridge.fatal = true
      ∧ ofBridge (.statusIn 0) = true := by decide
/-- A command in three parts, one of them empty. -/
theorem witness_ForwardedCommandIsTheSegments :
    classifyCase [0, 0xA4, 0, 0, 3, 0x3F] = .case ⟨.case3, 3, 0, false, 5, 1⟩
      ∧ ¬ ([0, 0xA4, 0, 0, 3, (0x3F : Byte)].length = 6 ∧ [0, 0xA4, 0, 0, 3, 0x3F].getD 4 0#8 = 0)
      ∧ ([[0x00], [], [0x01]] : List (List Byte)).flatten.length = 3 - min 1 3 := by decide +kernel
theorem witness_LineSideIgnoresTheBridge :
    ofBridge (.lineByte false false false false 0x00) = false
      ∧ got (.lineByte false false false false 0x00) a0 State.top = some .inApdu := by decide +kernel
theorem witness_BridgeIgnoresTheLineSide :
    ofBridge (.apduSegCont [0x00]) = true
      ∧ out (.apduSegCont [0x00]) owing = some [.txToCard [0x00, 0xA4, 0, 0, 0x02, 0x3F, 0x00]] := by
  decide +kernel
theorem witness_SlotsShareNothing :
    [State.reset, a0.withFetchWord 32 0x20000000][1]? = some (a0.withFetchWord 32 0x20000000)
      ∧ (next? (step (a0.withFetchWord 32 0x20000000))).isSome = true := by decide +kernel
/-- An accepted message of the greatest length its field can state, in two reads; a wait for the header and
one for the rest; a bad length; a rejected message; codes and places that are told apart; an event with its
kind and content. -/
theorem witness_ReceiverCutsMessages :
    headerSize Params.start.wire + (List.replicate 251 (0 : Byte)).length = maxMsgLen Params.start.wire
      ∧ checkMsg Params.start.wire ⟨1, 3, 0, []⟩ = .accepted .sniffAtr
      ∧ [[1, 3, (0 : Byte)], [4]].flatten = msgBytes Params.start.wire ⟨1, 3, 0, []⟩
      ∧ [1, 2, (0 : Byte)].length < headerSize Params.start.wire
      ∧ headerSize Params.start.wire ≤ msgLen Params.start.wire [1, 2, 0, 5]
      ∧ [1, 2, 0, (5 : Byte)].length < msgLen Params.start.wire [1, 2, 0, 5]
      ∧ headerSize Params.start.wire ≤ [1, 2, 0, (3 : Byte)].length
      ∧ msgLen Params.start.wire [1, 2, 0, 3] < headerSize Params.start.wire
      ∧ checkMsg Params.start.wire ⟨9, 2, 0, []⟩ = .rejected .unknownType
      ∧ Params.start.wire.wf ∧ (Instr.statusIn 2).wf
      ∧ eventKind (.statusIn 2) = some .cardemStatus
      ∧ eventContent Params.start.wire (.statusIn 2) = some (.status 2) := by decide +kernel
/-- There are payload codecs, and each record that leaves the device has its message. -/
theorem witness_ReceiverHasCodec : Nonempty (WireCodec Params.start.wire) := wireCodec_exists _
theorem witness_RecordHasMessage (c : WireCodec Params.start.wire) :
    (recordMsg Params.start.wire c .sniff 0 (.atr [] 0)).isSome = true := rfl

end Sys2Proof.Tests
end

-- ==== Sys2Proof/Proofs/Slots.lean ====
/-! Proofs about the slots (rules R3, R344). -/

namespace Sys2Proof.Machine

/-- A step of the whole machine is the picked slot's own step, written back at that slot. -/
theorem slotStep_eq_next_set {k : Nat} {slots : List State} {s t : State}
    (hslot : slots[k]? = some s) (hstep : step s = .next t) :
    slotStep k slots = .next (slots.set k t) := by
  simp only [slotStep, hslot, hstep]

/-- Settles O59: the answered list is the old one with slot `k` replaced, so only slot `k` differs. -/
theorem slotsShareNothing : Obligations.SlotsShareNothing := by
  unfold Obligations.SlotsShareNothing
  intro k slots s t hslot hstep
  obtain ⟨hk, -⟩ := List.getElem?_eq_some_iff.mp hslot
  exact ⟨slots.set k t, slotStep_eq_next_set hslot hstep, List.length_set,
    List.getElem?_set_self hk, fun _ hj => List.getElem?_set_ne hj.symm⟩

end Sys2Proof.Machine

/-! ## Rows and events: a row does what its event does, in every state (log 7) -/

namespace Sys2Proof.Machine

/-- The byte that joins `OBUF` does not touch the TPDU registers. -/
@[simp] theorem obufAppend_tpdu (b : Byte) (s : State) : (obufAppend b s).tpdu = s.tpdu := by
  rw [obufAppend_eq]

theorem handLine_congr {rule rule' : State → Effect} {s : State} (h : rule s = rule' s) :
    handLine rule s = handLine rule' s := by
  simp only [handLine, h]

/-- A live slot outside `Reset` handles an error-free byte in the rule of its phase (rule R210). -/
theorem lineEvent_live {s : State} (hf : s.fault = none) (ht : s.top ≠ .reset) (dir : Bool)
    (b : Byte) : lineEvent dir false false false b s = linePhase b s := by
  simp [lineEvent, whenLive_live s _ hf, ht]

/-- A phase row is its event as soon as its rule is the phase's rule wherever the row applies. -/
theorem lineRow_eq_lineEvent {applies : State → Bool} {rule : State → Effect} {b : Byte}
    {s : State} (dir : Bool)
    (h : applies s = true → s.top ≠ .reset ∧ handLine rule s = linePhase b s) :
    lineRow applies rule dir b s = lineEvent dir false false false b s := by
  by_cases hf : s.fault = none
  · by_cases ha : applies s = true
    · obtain ⟨htop, hrule⟩ := h ha
      rw [lineRow_applies s applies rule dir b hf ha, lineEvent_live hf htop, hrule]
    · exact lineRow_else s applies rule dir b (.inr (Bool.eq_false_iff.mpr ha))
  · exact lineRow_else s applies rule dir b (.inl hf)

theorem atTop_iff {t : Top} {s : State} : atTop t s = true ↔ s.top = t := by
  simp [atTop]

theorem atAtr_iff {st : AtrState} {s : State} :
    atAtr st s = true ↔ s.top = .inAtr ∧ s.atr.st = st := by
  simp [atAtr]

theorem atPps_iff {p : PpsPos} {s : State} :
    atPps p s = true ↔ s.top = .inPts ∧ s.pps.pos = p := by
  simp [atPps]

theorem atPpsHalf_iff {h : PpsPhase} {p : PpsPos} {s : State} :
    atPpsHalf h p s = true ↔ (s.top = .inPts ∧ s.pps.pos = p) ∧ s.pps.phase = h := by
  simp [atPpsHalf, atPps_iff]

theorem atTpdu_iff {st : TpduState} {s : State} :
    atTpdu st s = true ↔ s.top = .inApdu ∧ s.tpdu.st = st := by
  simp [atTpdu]

theorem atProc_iff {c : PbClass} {b : Byte} {s : State} :
    atProc c b s = true
      ↔ (s.top = .inApdu ∧ s.tpdu.st = .proc) ∧ classifyPb s.tpdu.ctx.hdr.ins b = c := by
  simp [atProc, atTpdu_iff]

/-! ### The rule of a phase, at the sub-state that selects it -/

section
variable {s : State} {b : Byte}

theorem linePhase_waitAtr (ht : s.top = .waitAtr) : linePhase b s = handLine (ruleWaitAtr b) s := by
  simp only [linePhase, ht]

theorem linePhase_inAtr (ht : s.top = .inAtr) : linePhase b s = handLine (ruleInAtr b) s := by
  simp only [linePhase, ht]

theorem linePhase_waitApdu (ht : s.top = .waitApdu) :
    linePhase b s = handLine (ruleWaitApdu b) s := by
  simp only [linePhase, ht]

theorem linePhase_inApdu (ht : s.top = .inApdu) : linePhase b s = handLine (ruleInApdu b) s := by
  simp only [linePhase, ht]

theorem linePhase_inPts (ht : s.top = .inPts) : linePhase b s = handLine (ruleInPts b) s := by
  simp only [linePhase, ht]

/-- In `InAtr` the rule of R221, which enters `InAtr`, is the TS rule. -/
theorem ruleWaitAtr_inAtr (ht : s.top = .inAtr) : ruleWaitAtr b s = ruleTs b s := by
  rw [ruleWaitAtr, ← ht]

end

/-- An ATR row does what `InAtr` does at the row's sub-state (rule R222). -/
theorem atrRow_eq_lineEvent {st : AtrState} {rule : State → Effect} {b : Byte} {s : State}
    (dir : Bool) (hrule : s.atr.st = st → rule s = ruleInAtr b s) :
    lineRow (atAtr st) rule dir b s = lineEvent dir false false false b s :=
  lineRow_eq_lineEvent dir fun ha => by
    obtain ⟨htop, hst⟩ := atAtr_iff.mp ha
    exact ⟨by simp [htop], by rw [linePhase_inAtr htop, handLine_congr (hrule hst)]⟩

/-- The TS row applies in two phases (rules R143, R221). -/
theorem tsRow_eq_lineEvent (dir : Bool) (b : Byte) (s : State) :
    lineRow atTs (ruleWaitAtr b) dir b s = lineEvent dir false false false b s :=
  lineRow_eq_lineEvent dir fun ha => by
    obtain ⟨htop | htop, hst⟩ : (s.top = .waitAtr ∨ s.top = .inAtr) ∧ s.atr.st = .waitTS := by
      simpa [atTs] using ha
    · exact ⟨by simp [htop], (linePhase_waitAtr htop).symm⟩
    · refine ⟨by simp [htop], ?_⟩
      rw [linePhase_inAtr htop]
      exact handLine_congr (by rw [ruleWaitAtr_inAtr htop, ruleInAtr, hst])

/-- A PPS row does what `InPts` does at the row's position (rule R224). -/
theorem ppsRow_eq_lineEvent {p : PpsPos} {rule : State → Effect} {b : Byte} {s : State}
    (dir : Bool) (hrule : s.pps.pos = p → rule s = ruleInPts b s) :
    lineRow (atPps p) rule dir b s = lineEvent dir false false false b s :=
  lineRow_eq_lineEvent dir fun ha => by
    obtain ⟨htop, hpos⟩ := atPps_iff.mp ha
    exact ⟨by simp [htop], by rw [linePhase_inPts htop, handLine_congr (hrule hpos)]⟩

/-- A PPS row of one half does what `InPts` does at the row's position in that half (rule R224). -/
theorem ppsHalfRow_eq_lineEvent {h : PpsPhase} {p : PpsPos} {rule : State → Effect} {b : Byte}
    {s : State} (dir : Bool)
    (hrule : s.pps.pos = p → s.pps.phase = h → rule s = ruleInPts b s) :
    lineRow (atPpsHalf h p) rule dir b s = lineEvent dir false false false b s :=
  lineRow_eq_lineEvent dir fun ha => by
    obtain ⟨⟨htop, hpos⟩, hphase⟩ := atPpsHalf_iff.mp ha
    exact ⟨by simp [htop], by rw [linePhase_inPts htop, handLine_congr (hrule hpos hphase)]⟩

/-- A TPDU row does what `InApdu` does at the row's sub-state, after the append (rule R220). -/
theorem tpduRow_eq_lineEvent {st : TpduState} {rule : State → Effect} {b : Byte} {s : State}
    (dir : Bool) (hrule : ∀ u : State, u.tpdu.st = st → rule u = ruleTpdu b u) :
    lineRow (atTpdu st) (ruleAppended rule b) dir b s = lineEvent dir false false false b s :=
  lineRow_eq_lineEvent dir fun ha => by
    obtain ⟨htop, hst⟩ := atTpdu_iff.mp ha
    refine ⟨by simp [htop], ?_⟩
    rw [linePhase_inApdu htop]
    exact handLine_congr (hrule _ (by simpa using hst))

/-- A procedure-byte row does what `Proc` does with a byte of the row's class (rules R98, R256). -/
theorem procRow_eq_lineEvent {c : PbClass} {rule : State → Effect} {b : Byte} {s : State}
    (dir : Bool)
    (hrule : ∀ u : State, classifyPb u.tpdu.ctx.hdr.ins b = c → rule u = ruleProc b u) :
    lineRow (atProc c b) (ruleAppended rule b) dir b s = lineEvent dir false false false b s :=
  lineRow_eq_lineEvent dir fun ha => by
    obtain ⟨⟨htop, hst⟩, hclass⟩ := atProc_iff.mp ha
    refine ⟨by simp [htop], ?_⟩
    rw [linePhase_inApdu htop]
    refine handLine_congr ?_
    show rule (obufAppend b s) = ruleTpdu b (obufAppend b s)
    rw [hrule _ (by simpa using hclass), ruleTpdu, obufAppend_tpdu, hst]

/-- In `WaitApdu` the CLA row is for every byte but 0xFF (rule R223). -/
theorem claRow_eq_lineEvent (dir : Bool) (b : Byte) (s : State) :
    lineRow (fun s => atTop .waitApdu s && b != 0xFF#8) (ruleFirstTpdu b) dir b s
      = lineEvent dir false false false b s :=
  lineRow_eq_lineEvent dir fun ha => by
    obtain ⟨htop, hb⟩ : s.top = .waitApdu ∧ b ≠ 0xFF#8 := by simpa [atTop] using ha
    refine ⟨by simp [htop], ?_⟩
    rw [linePhase_waitApdu htop]
    exact handLine_congr (by rw [ruleWaitApdu, if_neg hb])

/-- In `WaitApdu` the byte 0xFF opens a PPS exchange (rules R182, R223). -/
theorem ptssRow_eq_lineEvent (dir : Bool) (s : State) :
    lineRow (atTop .waitApdu) (fun s => .done (rulePtssReq s)) dir 0xFF#8 s
      = lineEvent dir false false false 0xFF#8 s :=
  lineRow_eq_lineEvent dir fun ha => by
    have htop := atTop_iff.mp ha
    refine ⟨by simp [htop], ?_⟩
    rw [linePhase_waitApdu htop]
    exact handLine_congr (by rw [ruleWaitApdu, if_pos rfl])

/-- A row of one phase does what the event does in that phase (rule R210). -/
theorem topRow_eq_lineEvent {t : Top} {rule : State → Effect} {b : Byte} {s : State} (dir : Bool)
    (ht : t ≠ .reset) (hrule : s.top = t → linePhase b s = handLine rule s) :
    lineRow (atTop t) rule dir b s = lineEvent dir false false false b s :=
  lineRow_eq_lineEvent dir fun ha => by
    have htop := atTop_iff.mp ha
    exact ⟨htop ▸ ht, (hrule htop).symm⟩

/-- An error row does what the event does with an error bit set (rule R211). -/
theorem framingRow_eq_lineEvent {pe oe fe : Bool} (he : (pe || oe || fe) = true) (dir : Bool)
    (b : Byte) (s : State) : framingRow dir pe oe fe b s = lineEvent dir pe oe fe b s := by
  unfold framingRow
  split
  next h =>
    obtain ⟨hf, ht⟩ := h
    simp [lineEvent, whenLive_live s _ hf, ht, he]
  next => rfl

/-- In `Reset` every line byte is ignored (rule R236). -/
theorem resetRow_eq_lineEvent (dir pe oe fe : Bool) (b : Byte) (s : State) :
    execLineByteReset dir pe oe fe b s = lineEvent dir pe oe fe b s := by
  unfold execLineByteReset
  split
  next h => simp [lineEvent, whenLive, atTop_iff.mp h]
  next => rfl

/-- A WT expiry row does what the expiry does in the row's phase (rule R225). -/
theorem expiryRow_eq_expiryEvent {t : Top} {rule : State → Effect} {s : State}
    (hrule : s.top = t → expiryPhase s = handExpiry rule s) :
    expiryRow t rule s = expiryEvent s := by
  unfold expiryRow
  split
  next h =>
    obtain ⟨hf, harm, htop⟩ := h
    simp [expiryEvent, whenLive_live s _ hf, harm, hrule htop]
  next => rfl

theorem onlyClk_iff {vcc rst : Bool} {s : State} :
    onlyClk vcc rst s = true
      ↔ (rst = false ∧ vcc = true) ∧ (resetActive s.status = false ∨ s.top ≠ .reset) := by
  simp [onlyClk]

/-- Without a release of RESET in `Reset` nothing follows the levels (rule R216). -/
theorem releaseReset_skip {wasReset : Bool} {s : State} (h : wasReset = false ∨ s.top ≠ .reset) :
    releaseReset wasReset s = s := by
  rw [releaseReset, if_neg]
  rintro ⟨hwas, htop⟩
  rcases h with h | h
  · simp [h] at hwas
  · exact h htop

/-- The CLK row does what the signal event does where none of its other tests applies (rule R218). -/
theorem clkRow_eq_signalEvent (clk vcc rst : Bool) (s : State) :
    execSignalClk clk vcc rst s = signalEvent clk vcc rst s := by
  unfold execSignalClk
  split
  next h =>
    obtain ⟨hf, hclk⟩ := h
    obtain ⟨⟨rfl, rfl⟩, hnot⟩ := onlyClk_iff.mp hclk
    have hskip := releaseReset_skip (s := recordLevels false true clk s) hnot
    simp [signalEvent, whenLive_live s _ hf, hskip]
  next => rfl

/-- Settles O6: row by row of the opcode table; an event row is its own event. -/
theorem rowDoesWhatItsEventDoes : Obligations.RowDoesWhatItsEventDoes := by
  unfold Obligations.RowDoesWhatItsEventDoes
  intro i s
  cases i with
  | lineBytePe dir oe fe b => exact framingRow_eq_lineEvent (by simp) dir b s
  | lineByteOe dir pe fe b => exact framingRow_eq_lineEvent (by simp) dir b s
  | lineByteFe dir pe oe b => exact framingRow_eq_lineEvent (by simp) dir b s
  | lineByteReset dir pe oe fe b => exact resetRow_eq_lineEvent dir pe oe fe b s
  | lineByteWaitAtr dir b => exact topRow_eq_lineEvent dir (by decide) linePhase_waitAtr
  | lineByteInAtr dir b => exact topRow_eq_lineEvent dir (by decide) linePhase_inAtr
  | lineByteWaitApdu dir b => exact topRow_eq_lineEvent dir (by decide) linePhase_waitApdu
  | lineByteInPts dir b => exact topRow_eq_lineEvent dir (by decide) linePhase_inPts
  | lineByteInApdu dir b => exact topRow_eq_lineEvent dir (by decide) linePhase_inApdu
  | atrTs dir b => exact tsRow_eq_lineEvent dir b s
  | atrT0 dir b => exact atrRow_eq_lineEvent dir fun h => by rw [ruleInAtr, h]
  | atrTa dir b => exact atrRow_eq_lineEvent dir fun h => by rw [ruleInAtr, h]
  | atrTb dir b => exact atrRow_eq_lineEvent dir fun h => by rw [ruleInAtr, h]
  | atrTc dir b => exact atrRow_eq_lineEvent dir fun h => by rw [ruleInAtr, h]
  | atrTd dir b => exact atrRow_eq_lineEvent dir fun h => by rw [ruleInAtr, h]
  | atrHist dir b => exact atrRow_eq_lineEvent dir fun h => by rw [ruleInAtr, h]
  | atrTck dir b => exact atrRow_eq_lineEvent dir fun h => by rw [ruleInAtr, h]
  | ppsPtssReq dir => exact ptssRow_eq_lineEvent dir s
  | ppsPts0 dir b => exact ppsRow_eq_lineEvent dir fun h => by rw [ruleInPts, rulePps, h]
  | ppsPts1 dir b => exact ppsRow_eq_lineEvent dir fun h => by rw [ruleInPts, rulePps, h]
  | ppsPts2 dir b => exact ppsRow_eq_lineEvent dir fun h => by rw [ruleInPts, rulePps, h]
  | ppsPts3 dir b => exact ppsRow_eq_lineEvent dir fun h => by rw [ruleInPts, rulePps, h]
  | ppsPckReq dir b =>
    exact ppsHalfRow_eq_lineEvent dir fun h hp => by simp only [ruleInPts, rulePps, h, hp]
  | ppsPtssResp dir b =>
    exact ppsHalfRow_eq_lineEvent dir fun h hp => by simp only [ruleInPts, rulePps, h, hp]
  | ppsPckResp dir b =>
    exact ppsHalfRow_eq_lineEvent dir fun h hp => by simp only [ruleInPts, rulePps, h, hp]
  | tpduCla dir b => exact claRow_eq_lineEvent dir b s
  | tpduIns dir b => exact tpduRow_eq_lineEvent dir fun u h => by rw [ruleTpdu, h]
  | tpduP1 dir b => exact tpduRow_eq_lineEvent dir fun u h => by rw [ruleTpdu, h]
  | tpduP2 dir b => exact tpduRow_eq_lineEvent dir fun u h => by rw [ruleTpdu, h]
  | tpduP3 dir b => exact tpduRow_eq_lineEvent dir fun u h => by rw [ruleTpdu, h]
  | tpduData dir b => exact tpduRow_eq_lineEvent dir fun u h => by rw [ruleTpdu, h]
  | tpduSw2 dir b => exact tpduRow_eq_lineEvent dir fun u h => by rw [ruleTpdu, h]
  | tpduPbNull dir => exact procRow_eq_lineEvent dir fun u h => by rw [ruleProc, h]
  | tpduPbSw16x dir lo => exact procRow_eq_lineEvent dir fun u h => by rw [ruleProc, h]
  | tpduPbSw19x dir lo => exact procRow_eq_lineEvent dir fun u h => by rw [ruleProc, h]
  | tpduPbAckAll dir b => exact procRow_eq_lineEvent dir fun u h => by rw [ruleProc, h]
  | tpduPbAckOne dir b => exact procRow_eq_lineEvent dir fun u h => by rw [ruleProc, h]
  | tpduPbOther dir b => exact procRow_eq_lineEvent dir fun u h => by rw [ruleProc, h]
  | wtExpiryWaitAtr => exact expiryRow_eq_expiryEvent fun h => by rw [expiryPhase, h]
  | wtExpiryInAtr => exact expiryRow_eq_expiryEvent fun h => by rw [expiryPhase, h]
  | wtExpiryWaitApdu => exact expiryRow_eq_expiryEvent fun h => by rw [expiryPhase, h]
  | wtExpiryInApdu => exact expiryRow_eq_expiryEvent fun h => by rw [expiryPhase, h]
  | wtExpiryInPts => exact expiryRow_eq_expiryEvent fun h => by rw [expiryPhase, h]
  | signalClk clk vcc rst => exact clkRow_eq_signalEvent clk vcc rst s
  | _ => rfl

end Sys2Proof.Machine

/-! ## The row a phase vector selects (rules R24, R100) -/

namespace Sys2Proof.Machine

/-- A byte is its two nibbles (rule R10). -/
theorem joinNibbles_hi_lo (b : Byte) : joinNibbles (hiNibble b) (loNibble b) = b := by
  apply BitVec.eq_of_toNat_eq
  simp only [joinNibbles, hiNibble, loNibble, BitVec.extractLsb'_toNat, BitVec.toNat_ofNat]
  omega

theorem joinNibbles_of_hiNibble {b : Byte} {h : Nibble} (hb : hiNibble b = h) :
    joinNibbles h (loNibble b) = b := by
  rw [← hb, joinNibbles_hi_lo]

/-! ### The classes of procedure bytes (rules R98, R256) -/

section
variable {ins b : Byte}

theorem classifyPb_sw1 (hb : b ≠ 0x60#8) (hn : hiNibble b = 6#4 ∨ hiNibble b = 9#4) :
    classifyPb ins b = .sw1 := by
  rw [classifyPb, if_neg hb, if_pos hn]

/-- An `ackByte` is not NULL, whose high nibble is 6, nor SW1: INS decides its class. -/
theorem classifyPb_ack (hb : ackByte b) :
    classifyPb ins b
      = if b = ins then .ackAll else if b = ins ^^^ 0xFF#8 then .ackOne else .other := by
  obtain ⟨h6, h9⟩ := hb
  have hnull : b ≠ 0x60#8 := by rintro rfl; exact h6 rfl
  have hsw : ¬ (hiNibble b = 6#4 ∨ hiNibble b = 9#4) := not_or.mpr ⟨h6, h9⟩
  rw [classifyPb, if_neg hnull, if_neg hsw]

/-- The procedure bytes, class by class: NULL, the two groups of SW1, and the rest. -/
theorem procByte_cases (b : Byte) :
    b = 0x60#8 ∨ (b ≠ 0x60#8 ∧ hiNibble b = 6#4) ∨ (b ≠ 0x60#8 ∧ hiNibble b = 9#4)
      ∨ ackByte b := by
  by_cases hnull : b = 0x60#8
  · exact .inl hnull
  · by_cases h6 : hiNibble b = 6#4
    · exact .inr (.inl ⟨hnull, h6⟩)
    · by_cases h9 : hiNibble b = 9#4
      · exact .inr (.inr (.inl ⟨hnull, h9⟩))
      · exact .inr (.inr (.inr ⟨h6, h9⟩))

/-! ### The row of a procedure byte -/

variable (dir : Bool)

theorem procRowOf_null : procRowOf ins dir 0x60#8 = .tpduPbNull dir := rfl

theorem procRowOf_sw16x (hb : b ≠ 0x60#8) (hn : hiNibble b = 6#4) :
    procRowOf ins dir b = .tpduPbSw16x dir (loNibble b) := by
  simp only [procRowOf, classifyPb_sw1 hb (.inl hn), if_pos hn]

theorem procRowOf_sw19x (hn : hiNibble b = 9#4) :
    procRowOf ins dir b = .tpduPbSw19x dir (loNibble b) := by
  have hb : b ≠ 0x60#8 := by rintro rfl; exact absurd hn (by decide)
  have hn6 : hiNibble b ≠ 6#4 := by rw [hn]; decide
  simp only [procRowOf, classifyPb_sw1 hb (.inr hn), if_neg hn6]

theorem procRowOf_ack (hb : ackByte b) :
    procRowOf ins dir b
      = if b = ins then .tpduPbAckAll dir b
        else if b = ins ^^^ 0xFF#8 then .tpduPbAckOne dir b else .tpduPbOther dir b := by
  rw [procRowOf, classifyPb_ack hb]
  split_ifs <;> rfl

/-- A procedure byte's row is a well-formed row of the error-free line byte. -/
theorem procRowOf_event_wf (ins b : Byte) :
    (procRowOf ins dir b).event = .lineByte dir false false false b
      ∧ (procRowOf ins dir b).wf := by
  obtain rfl | ⟨hnull, h6⟩ | ⟨-, h9⟩ | hack := procByte_cases b
  · exact ⟨rfl, trivial⟩
  · have hlo : loNibble b ≠ 0#4 := fun h0 => hnull (by
      rw [← joinNibbles_of_hiNibble h6, h0]; rfl)
    rw [procRowOf_sw16x dir hnull h6]
    exact ⟨by rw [Instr.event, joinNibbles_of_hiNibble h6], hlo⟩
  · rw [procRowOf_sw19x dir h9]
    exact ⟨by rw [Instr.event, joinNibbles_of_hiNibble h9], trivial⟩
  · rw [procRowOf_ack dir hack]
    split_ifs
    · exact ⟨rfl, hack⟩
    · exact ⟨rfl, hack⟩
    · exact ⟨rfl, hack⟩

end

/-! ### The row selected is a well-formed row of its event -/

theorem framingRowOf_event_wf (dir : Bool) {pe oe fe : Bool} (he : (pe || oe || fe) = true)
    (b : Byte) :
    (framingRowOf dir pe oe fe b).event = .lineByte dir pe oe fe b
      ∧ (framingRowOf dir pe oe fe b).wf := by
  cases pe
  · cases oe
    · obtain rfl : fe = true := by simpa using he
      exact ⟨rfl, trivial⟩
    · exact ⟨rfl, trivial⟩
  · exact ⟨rfl, trivial⟩

theorem atrRowOf_event_wf (st : AtrState) (dir : Bool) (b : Byte) :
    (atrRowOf st dir b).event = .lineByte dir false false false b ∧ (atrRowOf st dir b).wf := by
  cases st <;> exact ⟨rfl, trivial⟩

theorem ppsRowOf_event_wf (h : PpsPhase) (p : PpsPos) (dir : Bool) (b : Byte) :
    (ppsRowOf h p dir b).event = .lineByte dir false false false b ∧ (ppsRowOf h p dir b).wf := by
  cases p <;> cases h <;> exact ⟨rfl, trivial⟩

theorem tpduRowOf_event_wf (st : TpduState) (ins : Byte) (dir : Bool) (b : Byte) :
    (tpduRowOf st ins dir b).event = .lineByte dir false false false b
      ∧ (tpduRowOf st ins dir b).wf := by
  cases st with
  | proc => exact procRowOf_event_wf dir ins b
  | _ => exact ⟨rfl, trivial⟩

section
variable (s : State) (dir : Bool) (b : Byte)

/-! ### The row of an error-free line byte, phase by phase -/

theorem rowOf_lineByte (ht : s.top = .reset) (pe oe fe : Bool) :
    rowOf s (.lineByte dir pe oe fe b) = .lineByteReset dir pe oe fe b := by
  simp only [rowOf, Instr.event, lineRowOf, if_pos ht]

theorem rowOf_lineByte_error (ht : s.top ≠ .reset) {pe oe fe : Bool}
    (he : (pe || oe || fe) = true) :
    rowOf s (.lineByte dir pe oe fe b) = framingRowOf dir pe oe fe b := by
  simp only [rowOf, Instr.event, lineRowOf, if_neg ht, if_pos he]

theorem rowOf_lineByte_waitAtr (ht : s.top = .waitAtr) :
    rowOf s (.lineByte dir false false false b)
      = if s.atr.st = .waitTS then .atrTs dir b else .lineByteWaitAtr dir b := by
  simp [rowOf, Instr.event, lineRowOf, ht]

theorem rowOf_lineByte_inAtr (ht : s.top = .inAtr) :
    rowOf s (.lineByte dir false false false b) = atrRowOf s.atr.st dir b := by
  simp [rowOf, Instr.event, lineRowOf, ht]

theorem rowOf_lineByte_waitApdu (ht : s.top = .waitApdu) :
    rowOf s (.lineByte dir false false false b)
      = if b = 0xFF#8 then .ppsPtssReq dir else .tpduCla dir b := by
  simp [rowOf, Instr.event, lineRowOf, ht]

theorem rowOf_lineByte_inApdu (ht : s.top = .inApdu) :
    rowOf s (.lineByte dir false false false b)
      = tpduRowOf s.tpdu.st s.tpdu.ctx.hdr.ins dir b := by
  simp [rowOf, Instr.event, lineRowOf, ht]

theorem rowOf_lineByte_inPts (ht : s.top = .inPts) :
    rowOf s (.lineByte dir false false false b) = ppsRowOf s.pps.phase s.pps.pos dir b := by
  simp [rowOf, Instr.event, lineRowOf, ht]

theorem lineRowOf_event_wf (pe oe fe : Bool) :
    (lineRowOf s dir pe oe fe b).event = .lineByte dir pe oe fe b
      ∧ (lineRowOf s dir pe oe fe b).wf := by
  change (rowOf s (.lineByte dir pe oe fe b)).event = _ ∧ (rowOf s (.lineByte dir pe oe fe b)).wf
  by_cases hreset : s.top = .reset
  · rw [rowOf_lineByte s dir b hreset]
    exact ⟨rfl, trivial⟩
  by_cases he : (pe || oe || fe) = true
  · rw [rowOf_lineByte_error s dir b hreset he]
    exact framingRowOf_event_wf dir he b
  obtain ⟨⟨rfl, rfl⟩, rfl⟩ : (pe = false ∧ oe = false) ∧ fe = false := by simpa using he
  cases ht : s.top with
  | reset => exact absurd ht hreset
  | waitAtr =>
    rw [rowOf_lineByte_waitAtr s dir b ht]
    split_ifs
    · exact ⟨rfl, trivial⟩
    · exact ⟨rfl, trivial⟩
  | inAtr =>
    rw [rowOf_lineByte_inAtr s dir b ht]
    exact atrRowOf_event_wf s.atr.st dir b
  | waitApdu =>
    rw [rowOf_lineByte_waitApdu s dir b ht]
    split_ifs with hb
    · exact ⟨by rw [hb]; rfl, trivial⟩
    · exact ⟨rfl, hb⟩
  | inApdu =>
    rw [rowOf_lineByte_inApdu s dir b ht]
    exact tpduRowOf_event_wf s.tpdu.st s.tpdu.ctx.hdr.ins dir b
  | inPts =>
    rw [rowOf_lineByte_inPts s dir b ht]
    exact ppsRowOf_event_wf s.pps.phase s.pps.pos dir b

theorem expiryRowOf_event_wf : (expiryRowOf s).event = .wtExpiry ∧ (expiryRowOf s).wf := by
  unfold expiryRowOf
  split_ifs
  · exact ⟨rfl, trivial⟩
  · cases s.top <;> exact ⟨rfl, trivial⟩

theorem signalRowOf_event_wf (clk vcc rst : Bool) :
    (signalRowOf s clk vcc rst).event = .signal clk vcc rst
      ∧ (signalRowOf s clk vcc rst).wf := by
  unfold signalRowOf
  cases rst
  · cases vcc
    · exact ⟨rfl, trivial⟩
    · cases onlyClk true false s <;> exact ⟨rfl, trivial⟩
  · exact ⟨rfl, trivial⟩

/-- The row selected is a row of the event, and well formed if the event is. -/
theorem rowOf_event_wf (i : Instr) :
    (rowOf s i).event = i.event ∧ (i.event.wf → (rowOf s i).wf) := by
  have hself : i.event.event = i.event := by cases i <;> rfl
  unfold rowOf
  split
  next dir pe oe fe b h =>
    obtain ⟨hev, hwf⟩ := lineRowOf_event_wf s dir b pe oe fe
    exact ⟨by rw [hev, h], fun _ => hwf⟩
  next h =>
    obtain ⟨hev, hwf⟩ := expiryRowOf_event_wf s
    exact ⟨by rw [hev, h], fun _ => hwf⟩
  next clk vcc rst h =>
    obtain ⟨hev, hwf⟩ := signalRowOf_event_wf s clk vcc rst
    exact ⟨by rw [hev, h], fun _ => hwf⟩
  next => exact ⟨hself, id⟩

/-- The row selected does what the instruction does: both do what their common event does. -/
theorem exec_rowOf (i : Instr) : exec (rowOf s i) s = exec i s := by
  rw [rowDoesWhatItsEventDoes (rowOf s i), (rowOf_event_wf s i).1, ← rowDoesWhatItsEventDoes i]

end

theorem byte_not_eq_xor (x : Byte) : ~~~ x = x ^^^ 0xFF#8 := by
  rw [show 0xFF#8 = BitVec.allOnes 8 from rfl, BitVec.xor_allOnes]

theorem byte_not_ne_self (x : Byte) : ~~~ x ≠ x := by
  revert x; decide

/-- Settles O7: each phase selects its row by the equation of `rowOf` in that phase. -/
theorem phaseVectorSelectsARow : Obligations.PhaseVectorSelectsARow := by
  unfold Obligations.PhaseVectorSelectsARow
  intro s
  refine ⟨fun i => ⟨exec_rowOf s i, rowOf_event_wf s i⟩,
    fun ht dir pe oe fe b => rowOf_lineByte s dir b ht pe oe fe, ?errors, ?line, ?expiry, ?signal⟩
  case errors =>
    intro ht dir x y b
    exact ⟨rowOf_lineByte_error s dir b ht (by simp), rowOf_lineByte_error s dir b ht (by simp),
      rowOf_lineByte_error s dir b ht (by simp)⟩
  case line =>
    intro dir b
    refine ⟨_, rfl, ?waitAtr, ?inAtr, ?waitApdu, ?inPts, ?inApdu⟩
    case waitAtr =>
      intro ht hst
      rw [rowOf_lineByte_waitAtr s dir b ht, if_pos hst]
    case inAtr =>
      intro ht
      rw [rowOf_lineByte_inAtr s dir b ht]
      refine ⟨?_, ?_, ?_, ?_, ?_, ?_, ?_⟩ <;> exact fun hst => by rw [hst]; rfl
    case waitApdu =>
      intro ht
      rw [rowOf_lineByte_waitApdu s dir b ht]
      exact ⟨fun hb => if_pos hb, fun hb => if_neg hb⟩
    case inPts =>
      intro ht
      rw [rowOf_lineByte_inPts s dir b ht]
      refine ⟨?_, ?_, ?_, ?_, ?_⟩
      iterate 4 exact fun hpos => by rw [hpos]; rfl
      refine ⟨?_, ?_, ?_⟩ <;> exact fun hphase hpos => by rw [hphase, hpos]; rfl
    case inApdu =>
      intro ht
      rw [rowOf_lineByte_inApdu s dir b ht]
      refine ⟨?_, ?_, ?_, ?_, ?_, ?_, ?proc⟩
      iterate 6 exact fun hst => by rw [hst]; rfl
      case proc =>
        intro hst
        rw [hst, tpduRowOf]
        refine ⟨fun hb => by rw [hb, procRowOf_null], fun hb hn => procRowOf_sw16x dir hb hn,
          fun hn => procRowOf_sw19x dir hn, fun hack => ?_⟩
        rw [procRowOf_ack dir hack, ← byte_not_eq_xor]
        refine ⟨fun hall => if_pos hall, fun hone => ?_, fun hall hone => ?_⟩
        · rw [if_neg (hone ▸ byte_not_ne_self _), if_pos hone]
        · rw [if_neg hall, if_neg hone]
  case expiry =>
    intro harm
    refine ⟨?_, ?_, ?_, ?_, ?_⟩ <;>
      exact fun ht => by simp [rowOf, Instr.event, expiryRowOf, harm, ht]
  case signal =>
    intro clk vcc
    refine ⟨rfl, rfl, fun hact ht => ?_, fun hkeep => ?_⟩
    · have hclk : onlyClk true false s = false := by simp [onlyClk, hact, ht]
      simp [rowOf, Instr.event, signalRowOf, hclk]
    · have hclk : onlyClk true false s = true := onlyClk_iff.mpr ⟨⟨rfl, rfl⟩, hkeep⟩
      simp [rowOf, Instr.event, signalRowOf, hclk]

end Sys2Proof.Machine

/-! ## The few things an instruction can do -/

namespace Sys2Proof.Machine

/-- The meanings of the events that are no bridge event (rules R89, R91, R160, R210, R214, R219, R225). -/
inductive LineSide : (State → Answer) → Prop
  | lineByte (dir pe oe fe : Bool) (b : Byte) : LineSide (lineEvent dir pe oe fe b)
  | wtExpiry : LineSide expiryEvent
  | signal (clk vcc rst : Bool) : LineSide (signalEvent clk vcc rst)
  | cardInsert (ins : Bool) : LineSide (cardInsertEvent ins)
  | atrSet (x : List Byte) : LineSide (execAtrSet x)
  | query (r : Params → QueryResult) : LineSide (answerQuery fun s => r s.params)
  | reserved : LineSide illegalEvent

/-- The rules of the bridge events (rules R293, R294, R297, R298). -/
inductive BridgeRule : (State → Effect) → Prop
  | segNew (seg : List Byte) : BridgeRule (segNew seg)
  | segCont (seg : List Byte) : BridgeRule (segCont seg)
  | cardResp (r : List Byte) : BridgeRule (cardAnswer r)
  | statusIn (f : Flags) : BridgeRule fun s => .done (statusReport f s)

theorem exec_eq_event (i : Instr) : exec i = exec i.event := funext (rowDoesWhatItsEventDoes i)

theorem lineSide_lineByte (dir pe oe fe : Bool) (b : Byte) :
    LineSide (exec (.lineByte dir pe oe fe b)) := .lineByte dir pe oe fe b

/-- Every instruction but the bridge events has one of the line side's meanings. -/
theorem lineSide_exec {i : Instr} (h : ofBridge i = false) : LineSide (exec i) := by
  rw [exec_eq_event]
  cases i with
  | apduSegNew | apduSegCont | cardResp | statusIn => cases h
  | wtExpiry | wtExpiryWaitAtr | wtExpiryInAtr | wtExpiryWaitApdu | wtExpiryInApdu
  | wtExpiryInPts => exact .wtExpiry
  | signal | signalRstAssert | signalRstRelease | signalVccOff | signalClk => exact .signal _ _ _
  | cardInsert ins => exact .cardInsert ins
  | atrSet x => exact .atrSet x
  | funcValidF f => exact .query fun _ => .bool (validF f)
  | funcValidD d => exact .query fun p => .bool (validD p.diTail d)
  | funcFidiRatio fidi => exact .query fun p => .timing (fidiToRatio p.diTail fidi)
  | funcCalcWt wi fi f di d => exact .query fun p => .timing (calcWt p.diTail wi fi di f d)
  | funcClassifyCase seg => exact .query fun _ => .apduCase (classifyCase seg)
  | funcClassifyPb ins b => exact .query fun _ => .pbClass (classifyPb ins b)
  | funcAtrParse x => exact .query fun p => .parse (atrParse p x)
  | funcAtrBuild x => exact .query fun p => .build (atrBuildTagged p x)
  | reservedFn | reservedKind0 | reservedKind9 | reservedKindB | reservedKindC | reservedKindD
  | reservedKindE | reservedKindF => exact .reserved
  | _ => exact lineSide_lineByte _ _ _ _ _

/-- A bridge event runs its rule. -/
theorem bridgeRule_exec {i : Instr} (h : ofBridge i = true) :
    ∃ rule, BridgeRule rule ∧ exec i = bridgeEvent rule := by
  cases i with
  | apduSegNew seg => exact ⟨_, .segNew seg, rfl⟩
  | apduSegCont seg => exact ⟨_, .segCont seg, rfl⟩
  | cardResp r => exact ⟨_, .cardResp r, rfl⟩
  | statusIn f => exact ⟨_, .statusIn f, rfl⟩
  | _ => cases h

/-! ### What is known when an event answers a next state -/

section
variable {s t : State}

theorem whenLive_next {k : State → Answer} (h : whenLive k s = .next t) :
    t = s ∨ (s.fault = none ∧ k s = .next t) := by
  by_cases hf : s.fault = none
  · exact .inr ⟨hf, by rw [← whenLive_live s k hf, h]⟩
  · rw [whenLive_stuck s k hf] at h
    exact .inl (by cases h; rfl)

theorem settle_next {e : Effect} (h : settle s e = .next t) :
    e = .done t ∨ ∃ f, t = enterFault f s := by
  cases e with
  | done u => exact .inl (by cases h; rfl)
  | faulted f => exact .inr ⟨f, by cases h; rfl⟩
  | noRule => cases h

/-- A line byte: nothing, a framing error, or the rule of the phase (rules R210, R211, R236). -/
theorem lineEvent_next {dir pe oe fe : Bool} {b : Byte}
    (h : lineEvent dir pe oe fe b s = .next t) :
    t = s ∨ t = framingError b pe oe fe s ∨ linePhase b s = .next t := by
  obtain rfl | ⟨-, h⟩ := whenLive_next h
  · exact .inl rfl
  · split_ifs at h
    · exact .inl (by cases h; rfl)
    · exact .inr (.inl (by cases h; rfl))
    · exact .inr (.inr h)

/-- A WT expiry: dropped, or the admitted expiry of the phase (rule R225). -/
theorem expiryEvent_next (h : expiryEvent s = .next t) : t = s ∨ expiryPhase s = .next t := by
  obtain rfl | ⟨-, h⟩ := whenLive_next h
  · exact .inl rfl
  · split_ifs at h
    · exact .inr h
    · exact .inl (by cases h; rfl)

/-- A bridge event: nothing, or what the rule does. -/
theorem bridgeEvent_next {rule : State → Effect} (h : bridgeEvent rule s = .next t) :
    t = s ∨ rule s = .done t ∨ ∃ f, t = enterFault f s := by
  unfold bridgeEvent whenBridgeLive at h
  obtain rfl | ⟨-, h⟩ := whenLive_next h
  · exact .inl rfl
  · split_ifs at h
    · exact .inl (by cases h; rfl)
    · exact .inr (settle_next h)

end

end Sys2Proof.Machine

/-! ## The invariant, taken apart by who may change a register -/

namespace Sys2Proof.Machine

/-- What no line byte and no WT expiry changes: parameters, mode, status, configured ATR, bridge. -/
structure SlotInv (s : State) : Prop where
  params : s.params.wf
  mode : s.mode = s.params.mode
  rcemu : rcemuFlag s.status = s.rcemuActive
  atrCfg : atrCfgInv s
  bridge : bridgeInv s.bridge

/-- The registers of the line side but for the timer. -/
structure LineInv (s : State) : Prop where
  timing : timingInv s
  fresh : beforeAtr s.top → s.timing = .default ∧ s.obuf = []
  obuf : s.obuf.length < s.params.obufSize
  atr : atrInv s
  pps : ppsInv s
  tpdu : tpduInv s

theorem inv_iff {s : State} : Inv s ↔ SlotInv s ∧ LineInv s ∧ timerInv s := by
  constructor
  · rintro ⟨hparams, hmode, hrcemu, htiming, hfresh, hobuf, htimer, hatr, hcfg, hpps, htpdu, hb⟩
    exact ⟨⟨hparams, hmode, hrcemu, hcfg, hb⟩, ⟨htiming, hfresh, hobuf, hatr, hpps, htpdu⟩, htimer⟩
  · rintro ⟨hslot, hline, htimer⟩
    exact ⟨hslot.params, hslot.mode, hslot.rcemu, hline.timing, hline.fresh, hline.obuf, htimer,
      hline.atr, hslot.atrCfg, hline.pps, hline.tpdu, hslot.bridge⟩

/-- `t` has the registers that no line byte and no WT expiry changes from `s`. -/
structure SameSlot (s t : State) : Prop where
  params : t.params = s.params
  mode : t.mode = s.mode
  status : t.status = s.status
  rcemu : t.rcemuActive = s.rcemuActive
  atrCfg : t.atrCfg = s.atrCfg
  bridge : t.bridge = s.bridge

theorem SlotInv.of_same {s t : State} (h : SlotInv s) (e : SameSlot s t) : SlotInv t where
  params := by rw [e.params]; exact h.params
  mode := by rw [e.mode, e.params]; exact h.mode
  rcemu := by rw [e.status, e.rcemu]; exact h.rcemu
  atrCfg := by rw [atrCfgInv, e.atrCfg, e.params]; exact h.atrCfg
  bridge := by rw [e.bridge]; exact h.bridge

theorem timerInv_of_disarmed {s : State} (h : s.timer.armed = false) : timerInv s :=
  ⟨fun harm => absurd (h.symm.trans harm) (by decide), fun _ => h⟩

/-! ### The timing registers (rule R25) -/

/-- The timing registers agree under a table tail. -/
def TimingOk (d : DiTail) (r : Timing) : Prop :=
  calcWt d r.wi (fiOf r.capFi) (diOf d r.capDi) (fiOf r.opFi) (diOf d r.opDi) = .ok r.wt
    ∧ fidiToRatio d (joinNibbles r.opFi r.opDi) = .ok r.fidiRatio

theorem timingInv_iff {s : State} : timingInv s ↔ TimingOk s.params.diTail s.timing := Iff.rfl

theorem fiOf_one : fiOf 1#4 = 372#16 := rfl
theorem diOf_one (d : DiTail) : diOf d 1#4 = 1#8 := rfl
theorem validD_one (d : DiTail) : validD d 1#8 = true := by simp [validD, diTable]

theorem timingOk_default (d : DiTail) : TimingOk d .default := by
  have hf : validF 372#16 = true := by decide
  constructor
  · simp [Timing.default, fiOf_one, diOf_one, calcWt, hf, validD_one]
  · have hhi : hiNibble (joinNibbles 1#4 1#4) = 1#4 := by decide
    have hlo : loNibble (joinNibbles 1#4 1#4) = 1#4 := by decide
    simp [Timing.default, fidiToRatio, hhi, hlo, fiOf_one, diOf_one]

/-! ### The registers phase by phase -/

/-- The ATR registers while an ATR is being read (rules R142, R148, R149, R222). -/
structure ReadingAtr (r : AtrRegs) : Prop where
  pastTs : r.st ≠ .waitTS
  notDone : r.st ≠ .done
  read : r.buf ≠ []
  index : r.idx.toNat < r.buf.length
  hist : r.st = .waitHist → r.k ≠ 0
  tck : r.st = .waitTCK → r.tckNeeded = true ∧ r.k = 0
  group : r.st ≠ .waitT0 → r.idx ≠ 0

/-- The PPS registers during an exchange (rules R28, R180, R192, R224). -/
structure InExchange (r : PpsRegs) : Prop where
  soFar : ppsSoFar r.pos (phaseBytes r) = true
  xor : r.xor = xorBytes (presentBytes (phaseBytes r))
  req : r.phase = .req → r.pos ≠ .ptss ∧ r.resp = .empty ∧ r.reqOk = false
  resp : r.phase = .resp → ppsWhole r.req = true
    ∧ r.reqOk = (xorBytes (presentBytes r.req) == 0)

/-- A classified context of the line (rules R255, R264). -/
def Classified (c : ApduCtx) : Prop :=
  (c.apduCase = .case2 ∧ c.lc.tot = 0 ∧ c.le.tot.toNat ≤ 256)
    ∨ (c.apduCase = .case3 ∧ c.le.tot = 0 ∧ c.lc.tot.toNat ≤ 255)

/-- The TPDU registers during a TPDU (rules R30, R255, R264, R265, R267). -/
structure InTpdu (r : TpduRegs) : Prop where
  counters : countersInv r.ctx
  started : r.st ≠ .idle
  noSw1 : r.ctx.sw1 = none
  header : inHeader r.st → r.dataLeft = 0 ∧ r.ctx = { ApduCtx.cleared with hdr := r.ctx.hdr }
  body : ¬ inHeader r.st → Classified r.ctx
  noBurst : r.st ≠ .data → r.dataLeft = 0
  burst : r.st = .data → r.dataLeft ≠ 0 ∧ r.dataLeft.toNat ≤ ((remaining r.ctx).getD 0).toNat
  sw : r.st = .sw2 ↔ r.ctx.sw0 ≠ none

theorem countersInv_cleared : countersInv .cleared := by decide

/-- The part of the line side that is the same in every phase after the ATR. -/
structure Session (s : State) : Prop where
  timing : TimingOk s.params.diTail s.timing
  obuf : s.obuf.length < s.params.obufSize
  atrFits : s.atr.buf.length ≤ s.params.atrMax
  atrDone : s.atr.st = .done

/-- What the phases before the ATR's end have in common (rules R212, R213). -/
structure Fresh (s : State) : Prop where
  timing : s.timing = .default
  obuf : s.obuf = []
  pps : s.pps = .cleared
  tpdu : s.tpdu = .cleared

section
variable {s : State}

theorem Session.lineInv (h : Session s) (htop : ¬ beforeAtr s.top) (hpps : ppsInv s)
    (htpdu : tpduInv s) : LineInv s where
  timing := h.timing
  fresh hb := absurd hb htop
  obuf := h.obuf
  atr := ⟨h.atrFits, fun ht => absurd (ht.imp_right .inl) htop,
    fun ht => absurd (.inr (.inr ht)) htop, fun _ => h.atrDone⟩
  pps := hpps
  tpdu := htpdu

theorem ppsInv_of_cleared (h : s.pps = .cleared) (htop : s.top ≠ .inPts) : ppsInv s :=
  ⟨fun _ => h, fun ht => absurd ht htop⟩

theorem tpduInv_of_cleared (h : s.tpdu = .cleared) (htop : s.top ≠ .inApdu) : tpduInv s :=
  ⟨by rw [h]; exact countersInv_cleared, fun _ => h, fun ht => absurd ht htop⟩

theorem lineInv_waitApdu (htop : s.top = .waitApdu) (h : Session s) (hpps : s.pps = .cleared)
    (htpdu : s.tpdu = .cleared) : LineInv s :=
  h.lineInv (by simp [htop]) (ppsInv_of_cleared hpps (by simp [htop]))
    (tpduInv_of_cleared htpdu (by simp [htop]))

theorem lineInv_inPts (htop : s.top = .inPts) (h : Session s) (hpps : InExchange s.pps)
    (htpdu : s.tpdu = .cleared) : LineInv s :=
  h.lineInv (by simp [htop])
    ⟨fun hne => absurd htop hne, fun _ => ⟨hpps.soFar, hpps.xor, hpps.req, hpps.resp⟩⟩
    (tpduInv_of_cleared htpdu (by simp [htop]))

theorem lineInv_inApdu (htop : s.top = .inApdu) (h : Session s) (hpps : s.pps = .cleared)
    (htpdu : InTpdu s.tpdu) : LineInv s :=
  h.lineInv (by simp [htop]) (ppsInv_of_cleared hpps (by simp [htop]))
    ⟨htpdu.counters, fun hne => absurd htop hne, fun _ => ⟨htpdu.started, htpdu.noSw1,
      htpdu.header, htpdu.body, htpdu.noBurst, htpdu.burst, htpdu.sw⟩⟩

theorem Fresh.lineInv (h : Fresh s) (hparams : s.params.wf) (htop : beforeAtr s.top)
    (hatr : atrInv s) : LineInv s := by
  have hpts : s.top ≠ .inPts := by rintro ht; simp [beforeAtr, ht] at htop
  have hapdu : s.top ≠ .inApdu := by rintro ht; simp [beforeAtr, ht] at htop
  obtain ⟨-, -, hsize, -⟩ := hparams
  exact {
    timing := timingInv_iff.mpr (by rw [h.timing]; exact timingOk_default _)
    fresh := fun _ => ⟨h.timing, h.obuf⟩
    obuf := by rw [h.obuf]; exact hsize
    atr := hatr
    pps := ppsInv_of_cleared h.pps hpts
    tpdu := tpduInv_of_cleared h.tpdu hapdu }

/-- In `Reset` and `WaitAtr` the ATR registers are cleared too (rules R212, R213). -/
theorem lineInv_noAtr (hparams : s.params.wf) (htop : s.top = .reset ∨ s.top = .waitAtr)
    (h : Fresh s) (hatr : s.atr = .cleared) : LineInv s := by
  have hbefore : beforeAtr s.top := htop.imp_right .inl
  refine h.lineInv hparams hbefore ⟨?_, fun _ => hatr, fun ht => ?_, fun hn => absurd hbefore hn⟩
  · rw [hatr]; exact Nat.zero_le _
  · rcases htop with h | h <;> rw [h] at ht <;> cases ht

theorem lineInv_inAtr (hparams : s.params.wf) (htop : s.top = .inAtr) (h : Fresh s)
    (hfits : s.atr.buf.length ≤ s.params.atrMax) (hatr : ReadingAtr s.atr) : LineInv s := by
  have hbefore : beforeAtr s.top := .inr (.inr htop)
  refine h.lineInv hparams hbefore ⟨hfits, fun ht => ?_, fun _ => ?_, fun hn => absurd hbefore hn⟩
  · rcases ht with h | h <;> rw [h] at htop <;> cases htop
  · exact ⟨hatr.pastTs, hatr.notDone, hatr.read, hatr.index, hatr.hist, hatr.tck, hatr.group⟩

/-! ### What the invariant says in each phase -/

theorem LineInv.session (h : LineInv s) (htop : ¬ beforeAtr s.top) : Session s := by
  obtain ⟨hfits, -, -, hdone⟩ := h.atr
  exact ⟨h.timing, h.obuf, hfits, hdone htop⟩

theorem LineInv.pps_cleared (h : LineInv s) (htop : s.top ≠ .inPts) : s.pps = .cleared :=
  h.pps.1 htop

theorem LineInv.tpdu_cleared (h : LineInv s) (htop : s.top ≠ .inApdu) : s.tpdu = .cleared := by
  obtain ⟨-, hcleared, -⟩ := h.tpdu
  exact hcleared htop

theorem LineInv.isFresh (h : LineInv s) (htop : beforeAtr s.top) : Fresh s := by
  obtain ⟨htiming, hobuf⟩ := h.fresh htop
  refine ⟨htiming, hobuf, h.pps_cleared ?_, h.tpdu_cleared ?_⟩ <;>
    (intro ht; simp [beforeAtr, ht] at htop)

theorem LineInv.atr_cleared (h : LineInv s) (htop : s.top = .waitAtr) : s.atr = .cleared := by
  obtain ⟨-, hcleared, -, -⟩ := h.atr
  exact hcleared (.inr htop)

theorem LineInv.readingAtr (h : LineInv s) (htop : s.top = .inAtr) : ReadingAtr s.atr := by
  obtain ⟨-, -, hreading, -⟩ := h.atr
  obtain ⟨hts, hdone, hread, hindex, hhist, htck, hgroup⟩ := hreading htop
  exact ⟨hts, hdone, hread, hindex, hhist, htck, hgroup⟩

theorem LineInv.inExchange (h : LineInv s) (htop : s.top = .inPts) : InExchange s.pps := by
  obtain ⟨hsoFar, hxor, hreq, hresp⟩ := h.pps.2 htop
  exact ⟨hsoFar, hxor, hreq, hresp⟩

theorem LineInv.inTpdu (h : LineInv s) (htop : s.top = .inApdu) : InTpdu s.tpdu := by
  obtain ⟨hcounters, -, hin⟩ := h.tpdu
  obtain ⟨hstarted, hopen, hheader, hbody, hnoBurst, hburst, hsw⟩ := hin htop
  exact ⟨hcounters, hstarted, hopen, hheader, hbody, hnoBurst, hburst, hsw⟩

end

/-! ### Power-on (rules R20 to R36) -/

/-- Settles O8: each field by computation. -/
theorem powerOnValues : Obligations.PowerOnValues := by
  unfold Obligations.PowerOnValues
  intro p
  exact ⟨State.powerOn p, rfl, rfl, rfl, rfl, rfl, rfl, rfl, rfl, rfl, rfl, rfl, rfl, rfl, rfl, rfl,
    rfl, rfl⟩

theorem rcemuFlag_zero : rcemuFlag 0 = false := by decide

theorem bridgeInv_powerOn : bridgeInv .powerOn := by decide

/-- Settles O9: a slot at power-on is in `Reset` with everything cleared. -/
theorem powerOnMeetsTheInvariant : Obligations.PowerOnMeetsTheInvariant := by
  unfold Obligations.PowerOnMeetsTheInvariant
  intro p hp
  refine inv_iff.mpr ⟨⟨hp, rfl, rcemuFlag_zero, ⟨Nat.zero_le _, .inl rfl⟩, bridgeInv_powerOn⟩,
    lineInv_noAtr hp (.inl rfl) ⟨rfl, rfl, rfl, rfl⟩ rfl, timerInv_of_disarmed rfl⟩

end Sys2Proof.Machine

/-! ## Line bytes keep the invariant: the ATR (rules R142 to R152, R221, R222) -/

namespace Sys2Proof.Machine

/-- What a byte rule leaves for the re-arm (rules R210, R233): all but the timer, in a phase with a
running timer. -/
structure Ready (u : State) : Prop where
  slot : SlotInv u
  line : LineInv u
  running : ¬ (u.top = .reset ∨ u.top = .waitAtr)

theorem Ready.rearm_inv {u : State} (h : Ready u) : Inv (rearm u) :=
  inv_iff.mpr ⟨h.slot.of_same ⟨rfl, rfl, rfl, rfl, rfl, rfl⟩,
    ⟨h.line.timing, h.line.fresh, h.line.obuf, h.line.atr, h.line.pps, h.line.tpdu⟩,
    fun _ => rfl, fun ht => absurd ht h.running⟩

/-- A model fault is no register of the invariant. -/
theorem inv_enterFault {s : State} {f : ModelFault} : Inv (enterFault f s) ↔ Inv s := Iff.rfl

theorem inv_raise {s : State} {e : ErrInfo} : Inv (raise e s) ↔ Inv s := Iff.rfl

/-- A handed line byte keeps the invariant if its rule leaves a state ready for the re-arm. -/
theorem handLine_keeps_inv {s t : State} {rule : State → Effect} (hs : Inv s)
    (hrule : ∀ u, rule s = .done u → Ready u) (h : handLine rule s = .next t) : Inv t := by
  obtain ⟨u, hu, rfl⟩ | ⟨f, -, rfl⟩ := handLine_next s rule t h
  · have hready := hrule u hu
    rw [if_neg fun htop => hready.running (.inl htop)]
    exact hready.rearm_inv
  · exact inv_enterFault.mpr hs

/-! ### The registers of the ATR parser -/

/-- Where the parser waits after an interface byte or a presence nibble (rule R141). -/
theorem waitFrom_cases (r : AtrRegs) (k0 : Nat) :
    (∃ k, waitFrom r k0 = waitOf k) ∨ (waitFrom r k0 = .waitHist ∧ r.k ≠ 0)
      ∨ (waitFrom r k0 = .waitTCK ∧ r.tckNeeded = true ∧ r.k = 0) ∨ waitFrom r k0 = .done := by
  unfold waitFrom
  cases firstPresent r.y k0 with
  | some k => exact .inl ⟨k, rfl⟩
  | none =>
    by_cases hk : r.k = 0#4
    · cases htck : r.tckNeeded <;> simp [histOrEnd, hk, htck]
    · simp [histOrEnd, hk]

/-- The parser reads on after any byte that ends in `waitFrom` (rules R144 to R148). -/
theorem readingAtr_waitFrom {r : AtrRegs} {k0 : Nat} (hread : r.buf ≠ [])
    (hindex : r.idx.toNat < r.buf.length) (hgroup : r.idx ≠ 0) (hdone : waitFrom r k0 ≠ .done) :
    ReadingAtr { r with st := waitFrom r k0 } := by
  obtain ⟨k, h⟩ | ⟨h, hk⟩ | ⟨h, htck⟩ | h := waitFrom_cases r k0
  · rw [h]
    cases k <;> exact ⟨nofun, nofun, hread, hindex, nofun, nofun, fun _ => hgroup⟩
  · rw [h]
    exact ⟨nofun, nofun, hread, hindex, fun _ => hk, nofun, fun _ => hgroup⟩
  · rw [h]
    exact ⟨nofun, nofun, hread, hindex, nofun, fun _ => htck, fun _ => hgroup⟩
  · exact absurd h hdone

/-- The byte rules leave the buffer to the append (rule R142). -/
@[simp] theorem takeAtrByte_buf (wiIdx b : Byte) (r : AtrRegs) :
    (takeAtrByte wiIdx b r).buf = r.buf := by
  rcases r with ⟨st, _, _, _, _, _, _, _⟩
  cases st <;> rfl

theorem ReadingAtr.append {r : AtrRegs} (h : ReadingAtr r) (b : Byte) :
    ReadingAtr { r with buf := r.buf ++ [b] } where
  pastTs := h.pastTs
  notDone := h.notDone
  read := by simp
  index := by simpa using Nat.lt_succ_of_lt h.index
  hist := h.hist
  tck := h.tck
  group := h.group

/-- A historical byte (rule R149): the count goes down, and what follows the last one is as after the
interface bytes. -/
theorem readingAtr_takeHist {r : AtrRegs} (h : ReadingAtr r) (hst : r.st = .waitHist)
    (hdone : (takeHist r).st ≠ .done) : ReadingAtr (takeHist r) := by
  have hgroup : r.idx ≠ 0 := h.group (by simp [hst])
  have htake : takeHist r = { r with
      k := r.k - 1#4
      st := if r.k - 1#4 = 0#4 then (if r.tckNeeded = true then .waitTCK else .done)
        else .waitHist } := by
    rw [← hst]; rfl
  rw [htake] at hdone ⊢
  by_cases hk : r.k - 1#4 = 0#4
  · cases htck : r.tckNeeded
    · simp [hk, htck] at hdone
    · simp only [hk, if_true]
      exact ⟨nofun, nofun, h.read, h.index, nofun, fun _ => ⟨rfl, rfl⟩, fun _ => hgroup⟩
  · simp only [hk, if_false]
    exact ⟨nofun, nofun, h.read, h.index, fun _ => hk, nofun, fun _ => hgroup⟩

/-- Every byte of an ATR, once appended, completes it or leaves the parser reading (rules R144 to R150).
The index cannot wrap: it stays below the number of bytes read. -/
theorem readingAtr_takeAtrByte (wiIdx b : Byte) {r : AtrRegs} (h : ReadingAtr r)
    (hnext : r.idx.toNat + 1 < r.buf.length) (hfits : r.buf.length ≤ 255)
    (hdone : (takeAtrByte wiIdx b r).st ≠ .done) : ReadingAtr (takeAtrByte wiIdx b r) := by
  cases hst : r.st <;> simp only [takeAtrByte, hst] at hdone ⊢
  case waitTS => exact absurd hst h.pastTs
  case waitT0 =>
    have hindex : (1#8).toNat < r.buf.length := by simp only [BitVec.toNat_ofNat]; omega
    exact readingAtr_waitFrom h.read hindex (by simp) hdone
  case waitTA =>
    exact readingAtr_waitFrom (r := { r with ta1 := if r.idx = 1 then some b else r.ta1 })
      h.read h.index (h.group (by simp [hst])) hdone
  case waitTB => exact readingAtr_waitFrom h.read h.index (h.group (by simp [hst])) hdone
  case waitTC =>
    exact readingAtr_waitFrom (r := { r with wi := if r.idx = wiIdx then some b else r.wi })
      h.read h.index (h.group (by simp [hst])) hdone
  case waitTD =>
    have hidx : (r.idx + 1).toNat = r.idx.toNat + 1 := by bv_omega
    have hindex : (r.idx + 1).toNat < r.buf.length := by rw [hidx]; exact hnext
    have hgroup : r.idx + 1 ≠ 0 := fun h0 => by rw [h0] at hidx; cases hidx
    exact readingAtr_waitFrom h.read hindex hgroup hdone
  case waitHist => exact readingAtr_takeHist h hst hdone
  case waitTCK => exact absurd rfl hdone
  case done => exact absurd hst h.notDone

/-- The TS byte opens an ATR (rules R143, R221). -/
theorem readingAtr_takeTs (b : Byte) :
    ReadingAtr (takeTs { AtrRegs.cleared with buf := [b] }) :=
  ⟨nofun, nofun, by simp [takeTs], Nat.zero_lt_one, nofun, nofun, fun h => absurd rfl h⟩

/-! ### The slot -/

/-- The ATR commit keeps the timing registers in agreement: the operating pair is the default one, which
is the pair the commit computes WT for (rule R152). -/
theorem timingOk_committed {s : State} (h : s.timing = .default) :
    TimingOk s.params.diTail (committedTiming s).2 := by
  have hdefault := timingOk_default s.params.diTail
  simp only [committedTiming, h]
  split
  next wt hwt => exact ⟨hwt, hdefault.2⟩
  next => exact hdefault

/-- An ATR byte rule leaves the slot in `InAtr` with the parser reading, or completes the ATR and enters
`WaitApdu` (rules R142, R151). -/
theorem atrRule_ready {s u : State} {take : AtrRegs → AtrRegs} {b : Byte} (hslot : SlotInv s)
    (htop : s.top = .inAtr) (hfresh : Fresh s) (hfits : s.atr.buf.length ≤ s.params.atrMax)
    (hbuf : (take { s.atr with buf := s.atr.buf ++ [b] }).buf = s.atr.buf ++ [b])
    (hread : s.atr.buf.length < s.params.atrMax →
      (take { s.atr with buf := s.atr.buf ++ [b] }).st ≠ .done →
      ReadingAtr (take { s.atr with buf := s.atr.buf ++ [b] }))
    (hu : atrRule take b s = .done u) : Ready u := by
  obtain ⟨-, h⟩ | ⟨hroom, hst, h⟩ | ⟨hroom, hst, h⟩ := atrRule_cases s take b _ hu
  · cases h
  all_goals
    obtain rfl := Effect.done.inj h
    have hlt : s.atr.buf.length < s.params.atrMax := by omega
    have hfits' : (take { s.atr with buf := s.atr.buf ++ [b] }).buf.length ≤ s.params.atrMax := by
      rw [hbuf, List.length_append]
      exact hlt
  · exact ⟨hslot.of_same ⟨rfl, rfl, rfl, rfl, rfl, rfl⟩,
      lineInv_inAtr hslot.params htop ⟨hfresh.timing, hfresh.obuf, hfresh.pps, hfresh.tpdu⟩ hfits'
        (hread hlt hst),
      by simp [htop]⟩
  · rw [atrDone_eq]
    obtain ⟨-, -, hsize, -⟩ := hslot.params
    refine ⟨hslot.of_same ⟨rfl, rfl, rfl, rfl, rfl, rfl⟩,
      lineInv_waitApdu rfl ⟨?_, hsize, hfits', hst⟩ hfresh.pps rfl, by simp⟩
    exact timingOk_committed
      (s := { s with atr := take { s.atr with buf := s.atr.buf ++ [b] } }) hfresh.timing

/-- The TS byte in `WaitAtr` (rule R221). -/
theorem ruleWaitAtr_ready {s u : State} {b : Byte} (hslot : SlotInv s) (hline : LineInv s)
    (htop : s.top = .waitAtr) (hu : ruleWaitAtr b s = .done u) : Ready u := by
  have hfresh := hline.isFresh (.inr (.inl htop))
  have hatr := hline.atr_cleared htop
  refine atrRule_ready (s := { s with top := .inAtr }) (take := takeTs) (b := b)
    (hslot.of_same ⟨rfl, rfl, rfl, rfl, rfl, rfl⟩) rfl
    ⟨hfresh.timing, hfresh.obuf, hfresh.pps, hfresh.tpdu⟩ hline.atr.1 rfl (fun _ _ => ?_) hu
  rw [show ({ s with top := .inAtr } : State).atr = .cleared from hatr]
  exact readingAtr_takeTs b

/-- While the ATR is read, the rule its sub-state selects is the byte rule on the registers. -/
theorem ruleInAtr_eq_atrRule {s : State} (b : Byte) (h : s.atr.st ≠ .done) :
    ruleInAtr b s = atrRule (takeAtrByte s.params.wiTcIndex b) b s := by
  cases hst : s.atr.st with
  | done => exact absurd hst h
  | _ => simp only [ruleInAtr, hst, ruleTs, ruleT0, ruleTa, ruleTb, ruleTc, ruleTd, ruleHist,
      ruleTck, atrRule, takeAtrByte]

/-- A byte in `InAtr` (rule R222). -/
theorem ruleInAtr_ready {s u : State} {b : Byte} (hslot : SlotInv s) (hline : LineInv s)
    (htop : s.top = .inAtr) (hu : ruleInAtr b s = .done u) : Ready u := by
  have hreading := hline.readingAtr htop
  obtain ⟨-, hmax, -, -⟩ := hslot.params
  rw [ruleInAtr_eq_atrRule b hreading.notDone] at hu
  refine atrRule_ready hslot htop (hline.isFresh (.inr (.inr htop))) hline.atr.1
    (takeAtrByte_buf _ _ _) (fun hroom hdone => ?_) hu
  have hlen : (s.atr.buf ++ [b]).length = s.atr.buf.length + 1 := by simp
  have hindex := hreading.index
  exact readingAtr_takeAtrByte _ b (hreading.append b) (by simp only [hlen]; omega)
    (by simp only [hlen]; omega) hdone

end Sys2Proof.Machine

/-! ## Line bytes keep the invariant: the PPS exchange (rules R180 to R192, R224) -/

namespace Sys2Proof.Machine

/-! ### The bytes of a PPS half -/

theorem xorBytes_append (x : List Byte) (b : Byte) : xorBytes (x ++ [b]) = xorBytes x ^^^ b := by
  simp [xorBytes]

section
variable {x : PpsBytes}

theorem ppsSoFar_ptss : ppsSoFar .ptss x = true ↔ x = .empty := by
  rcases x with ⟨_ | _, _ | _, _ | _, _ | _, _ | _, _ | _⟩ <;> simp [ppsSoFar, PpsBytes.empty]

theorem ppsSoFar_pts0 :
    ppsSoFar .pts0 x = true ↔ ∃ a, x = ⟨some a, none, none, none, none, none⟩ := by
  rcases x with ⟨_ | _, _ | _, _ | _, _ | _, _ | _, _ | _⟩ <;> simp [ppsSoFar]

theorem ppsSoFar_pts1 : ppsSoFar .pts1 x = true
    ↔ ∃ a t, x = ⟨some a, some t, none, none, none, none⟩ ∧ hasPts1 t = true := by
  rcases x with ⟨_ | _, _ | _, _ | _, _ | _, _ | _, _ | _⟩ <;> simp [ppsSoFar]

theorem ppsSoFar_pts2 : ppsSoFar .pts2 x = true
    ↔ ∃ a t p1, x = ⟨some a, some t, p1, none, none, none⟩
      ∧ hasPts2 t = true ∧ p1.isSome = hasPts1 t := by
  rcases x with ⟨_ | _, _ | _, p1, _ | _, _ | _, _ | _⟩ <;> simp [ppsSoFar]

theorem ppsSoFar_pts3 : ppsSoFar .pts3 x = true
    ↔ ∃ a t p1 p2, x = ⟨some a, some t, p1, p2, none, none⟩
      ∧ hasPts3 t = true ∧ p1.isSome = hasPts1 t ∧ p2.isSome = hasPts2 t := by
  rcases x with ⟨_ | _, _ | _, p1, p2, _ | _, _ | _⟩ <;> simp [ppsSoFar, and_assoc]

theorem ppsSoFar_pck : ppsSoFar .pck x = true
    ↔ ∃ a t p1 p2 p3, x = ⟨some a, some t, p1, p2, p3, none⟩
      ∧ p1.isSome = hasPts1 t ∧ p2.isSome = hasPts2 t ∧ p3.isSome = hasPts3 t := by
  rcases x with ⟨_ | _, _ | _, p1, p2, p3, _ | _⟩ <;> simp [ppsSoFar, and_assoc]

/-- The byte of the next position is the last of those present (rules R181, R188). -/
theorem presentBytes_putPps {p : PpsPos} (h : ppsSoFar p x = true) (b : Byte) :
    presentBytes (putPps x p b) = presentBytes x ++ [b] := by
  cases p with
  | ptss => obtain rfl := ppsSoFar_ptss.mp h; rfl
  | pts0 => obtain ⟨a, rfl⟩ := ppsSoFar_pts0.mp h; rfl
  | pts1 => obtain ⟨a, t, rfl, -⟩ := ppsSoFar_pts1.mp h; rfl
  | pts2 => obtain ⟨a, t, p1, rfl, -⟩ := ppsSoFar_pts2.mp h; simp [putPps, presentBytes]
  | pts3 => obtain ⟨a, t, p1, p2, rfl, -⟩ := ppsSoFar_pts3.mp h; simp [putPps, presentBytes]
  | pck => obtain ⟨a, t, p1, p2, p3, rfl, -⟩ := ppsSoFar_pck.mp h; simp [putPps, presentBytes]

/-! ### The position after each byte is the next one PTS0 announces (rule R181) -/

variable {b t : Byte}

theorem ppsSoFar_put_ptss (h : ppsSoFar .ptss x = true) :
    ppsSoFar .pts0 (putPps x .ptss b) = true := by
  obtain rfl := ppsSoFar_ptss.mp h
  rfl

theorem ppsSoFar_put_pts0 (h : ppsSoFar .pts0 x = true) :
    ppsSoFar (nextPos .pts0 b) (putPps x .pts0 b) = true := by
  obtain ⟨a, rfl⟩ := ppsSoFar_pts0.mp h
  simp only [nextPos]
  split_ifs with h1 h2 h3
  · simp [putPps, ppsSoFar, h1]
  · simp [putPps, ppsSoFar, h1, h2]
  · simp [putPps, ppsSoFar, h1, h2, h3]
  · simp [putPps, ppsSoFar, h1, h2, h3]

theorem ppsSoFar_put_pts1 (h : ppsSoFar .pts1 x = true) (ht : x.pts0 = some t) :
    ppsSoFar (nextPos .pts1 t) (putPps x .pts1 b) = true := by
  obtain ⟨a, t', rfl, h1⟩ := ppsSoFar_pts1.mp h
  obtain rfl := Option.some.inj ht
  simp only [nextPos]
  split_ifs with h2 h3
  · simp [putPps, ppsSoFar, h1, h2]
  · simp [putPps, ppsSoFar, h1, h2, h3]
  · simp [putPps, ppsSoFar, h1, h2, h3]

theorem ppsSoFar_put_pts2 (h : ppsSoFar .pts2 x = true) (ht : x.pts0 = some t) :
    ppsSoFar (nextPos .pts2 t) (putPps x .pts2 b) = true := by
  obtain ⟨a, t', p1, rfl, h2, h1⟩ := ppsSoFar_pts2.mp h
  obtain rfl := Option.some.inj ht
  simp only [nextPos]
  split_ifs with h3
  · simp [putPps, ppsSoFar, h1, h2, h3]
  · simp [putPps, ppsSoFar, h1, h2, h3]

theorem ppsSoFar_put_pts3 (h : ppsSoFar .pts3 x = true) :
    ppsSoFar .pck (putPps x .pts3 b) = true := by
  obtain ⟨a, t, p1, p2, rfl, h3, h1, h2⟩ := ppsSoFar_pts3.mp h
  simp [putPps, ppsSoFar, h1, h2, h3]

theorem ppsWhole_put_pck (h : ppsSoFar .pck x = true) : ppsWhole (putPps x .pck b) = true := by
  obtain ⟨a, t, p1, p2, p3, rfl, h1, h2, h3⟩ := ppsSoFar_pck.mp h
  simp [putPps, ppsWhole, h1, h2, h3]

end

/-! ### The PPS registers -/

/-- A byte of a half, if it leads to the position the half's bytes ask for (rule R181). -/
theorem inExchange_take {r : PpsRegs} {b : Byte} {p : PpsPos} (h : InExchange r) (hp : p ≠ .ptss)
    (hsoFar : ppsSoFar p (putPps (phaseBytes r) r.pos b) = true) :
    InExchange { ppsTake b r with pos := p } := by
  have hxor : r.xor ^^^ b = xorBytes (presentBytes (putPps (phaseBytes r) r.pos b)) := by
    rw [presentBytes_putPps h.soFar, xorBytes_append, h.xor]
  cases hphase : r.phase with
  | req =>
    obtain ⟨-, hresp, hok⟩ := h.req hphase
    simp only [phaseBytes, hphase] at hsoFar hxor
    simp only [ppsTake, hphase]
    exact ⟨hsoFar, hxor, fun _ => ⟨hp, hresp, hok⟩, nofun⟩
  | resp =>
    simp only [phaseBytes, hphase] at hsoFar hxor
    simp only [ppsTake, hphase]
    exact ⟨hsoFar, hxor, nofun, fun _ => h.resp hphase⟩

/-- The request's PCK: the request is whole, and whether its XOR is 0 is kept (rules R187, R192). -/
theorem inExchange_pckReq {r : PpsRegs} {b : Byte} (h : InExchange r) (hphase : r.phase = .req)
    (hpos : r.pos = .pck) :
    InExchange ⟨.resp, .ptss, (ppsTake b r).req, (ppsTake b r).resp, 0,
      (ppsTake b r).xor == 0⟩ := by
  obtain ⟨-, hresp, -⟩ := h.req hphase
  have hsoFar := h.soFar
  have hxor := h.xor
  simp only [phaseBytes, hphase, hpos] at hsoFar hxor
  simp only [ppsTake, hphase, hpos, hresp, hxor, ← xorBytes_append,
    ← presentBytes_putPps hsoFar]
  exact ⟨rfl, rfl, nofun, fun _ => ⟨ppsWhole_put_pck hsoFar, rfl⟩⟩

/-- The request's PTSS opens the exchange (rule R182). -/
theorem inExchange_entry : InExchange { ppsTake 0xFF#8 .cleared with pos := .pts0 } :=
  ⟨by decide, by decide, fun _ => ⟨by decide, by decide, by decide⟩, nofun⟩

/-! ### The slot -/

theorem nextPos_ne_ptss (p : PpsPos) (t : Byte) : nextPos p t ≠ .ptss := by
  cases p with
  | ptss | pts3 | pck => nofun
  | pts0 | pts1 | pts2 => simp only [nextPos]; split_ifs <;> nofun

theorem rulePtsNext_done {s u : State} {p : PpsPos} {b : Byte} (hu : rulePtsNext p b s = .done u) :
    ∃ t, (phaseBytes s.pps).pts0 = some t
      ∧ u = { s with pps := { ppsTake b s.pps with pos := nextPos p t } } := by
  unfold rulePtsNext at hu
  split at hu
  next t ht => exact ⟨t, ht, (Effect.done.inj hu).symm⟩
  next => cases hu


/-- The report of a PCK mismatch changes `LAST_ERR` and `OUTQ` at most. -/
theorem raiseUnless_eq (ok : Bool) (e : ErrInfo) (s : State) :
    ∃ out err, (if ok = true then s else raise e s) = { s with outq := out, lastErr := err } := by
  cases ok
  · exact ⟨_, _, rfl⟩
  · exact ⟨s.outq, s.lastErr, rfl⟩

theorem sendPpsResponse_eq (s : State) : ∃ out, sendPpsResponse s = { s with outq := out } := by
  unfold sendPpsResponse
  split
  · exact ⟨_, rfl⟩
  · exact ⟨s.outq, rfl⟩

theorem rulePckReq_done {s u : State} {b : Byte} (hu : rulePckReq b s = .done u) :
    ∃ out err, u = { s with
      pps := ⟨.resp, .ptss, (ppsTake b s.pps).req, (ppsTake b s.pps).resp, 0,
        (ppsTake b s.pps).xor == 0⟩
      outq := out, lastErr := err } := by
  obtain rfl := Effect.done.inj hu
  obtain ⟨out, err, hraise⟩ := raiseUnless_eq ((ppsTake b s.pps).xor == 0) (.pckMismatch .req)
    { s with pps := { ppsTake b s.pps with reqOk := (ppsTake b s.pps).xor == 0 } }
  rw [hraise]
  obtain ⟨out, hsend⟩ := sendPpsResponse_eq { s with
    pps := ⟨.resp, .ptss, (ppsTake b s.pps).req, (ppsTake b s.pps).resp, 0,
      (ppsTake b s.pps).xor == 0⟩
    outq := out, lastErr := err }
  exact ⟨out, err, hsend⟩

/-- The PPS commit writes timing registers that agree, or none (rule R188). -/
theorem ppsCommit_eq (p : Byte) (s : State) :
    ∃ r out err, ppsCommit p s = { s with timing := r, outq := out, lastErr := err }
      ∧ (TimingOk s.params.diTail s.timing → TimingOk s.params.diTail r) := by
  cases hwt : calcWt s.params.diTail s.timing.wi (fiOf s.timing.capFi)
      (diOf s.params.diTail s.timing.capDi) (fiOf (hiNibble p))
      (diOf s.params.diTail (loNibble p)) with
  | err e =>
    have hraise : ppsCommit p s = raise (.timing e .pps) s := by simp only [ppsCommit, hwt]
    exact ⟨s.timing, _, _, hraise, id⟩
  | ok wt =>
    cases hratio : fidiToRatio s.params.diTail p with
    | err e =>
      have hraise : ppsCommit p s = raise (.timing e .pps) s := by
        simp only [ppsCommit, hwt, hratio]
      exact ⟨s.timing, _, _, hraise, id⟩
    | ok ratio =>
      have hcommit : ppsCommit p s = { s with
          timing := { s.timing with
            opFi := hiNibble p, opDi := loNibble p, wt := wt, fidiRatio := ratio }
          outq := s.outq ++ [.uartSetFidi ratio] ++ [.fidi p ratio] } := by
        simp only [ppsCommit, hwt, hratio, emit]
      exact ⟨_, _, s.lastErr, hcommit, fun _ => ⟨hwt, by rw [joinNibbles_hi_lo]; exact hratio⟩⟩

/-- The response's PCK: the exchange ends in `WaitApdu`, `OBUF` is flushed and the timing registers
agree as before (rules R188, R192). -/
theorem rulePckResp_done {s u : State} {b : Byte} (hu : rulePckResp b s = .done u) :
    ∃ r out err, u = { s with
        top := .waitApdu, pps := .cleared, obuf := [], timing := r, outq := out, lastErr := err }
      ∧ (TimingOk s.params.diTail s.timing → TimingOk s.params.diTail r) := by
  obtain rfl := Effect.done.inj hu
  obtain ⟨out, err, hraise⟩ := raiseUnless_eq ((ppsTake b s.pps).xor == 0) (.pckMismatch .resp)
    { s with pps := ppsTake b s.pps }
  simp only [hraise, flush_eq, emit]
  split
  next p _ =>
    split
    · obtain ⟨r, out', err', hcommit, hok⟩ := ppsCommit_eq p { s with
        pps := ppsTake b s.pps, obuf := [], lastErr := err
        outq := out ++ flushed .ppsDone s.obuf
          ++ [.pps (presentBytes (ppsTake b s.pps).req) (presentBytes (ppsTake b s.pps).resp)] }
      exact ⟨r, out', err', congrArg (fun v => ppsClear { v with top := .waitApdu }) hcommit, hok⟩
    · exact ⟨s.timing, _, _, rfl, id⟩
  next => exact ⟨s.timing, _, _, rfl, id⟩

section
variable {s u : State} {b : Byte}

theorem Session.of_timing {r : Timing} {x : List Byte} (h : Session s)
    (hr : TimingOk s.params.diTail r) (hx : x.length < s.params.obufSize)
    (hparams : u.params = s.params) (hatr : u.atr = s.atr) (htiming : u.timing = r)
    (hobuf : u.obuf = x) : Session u where
  timing := by rw [hparams, htiming]; exact hr
  obuf := by rw [hobuf, hparams]; exact hx
  atrFits := by rw [hatr, hparams]; exact h.atrFits
  atrDone := by rw [hatr]; exact h.atrDone

/-- A PPS byte that goes on with the exchange. -/
theorem ready_inPts {r : PpsRegs} {out : List Record} {err : Option ErrInfo} (hslot : SlotInv s)
    (hsession : Session s) (htpdu : s.tpdu = .cleared) (hr : InExchange r) :
    Ready { s with top := .inPts, pps := r, outq := out, lastErr := err } :=
  ⟨hslot.of_same ⟨rfl, rfl, rfl, rfl, rfl, rfl⟩,
    lineInv_inPts rfl (hsession.of_timing hsession.timing hsession.obuf rfl rfl rfl rfl) hr htpdu,
    by simp⟩

/-- A byte in `InPts` (rule R224). -/
theorem ruleInPts_ready (hslot : SlotInv s) (hline : LineInv s) (htop : s.top = .inPts)
    (hu : ruleInPts b s = .done u) : Ready u := by
  have hsession := hline.session (by simp [beforeAtr, htop])
  have htpdu := hline.tpdu_cleared (by simp [htop])
  have hexch := hline.inExchange htop
  have hsoFar := hexch.soFar
  have hgo : ∀ p, p ≠ .ptss → ppsSoFar p (putPps (phaseBytes s.pps) s.pps.pos b) = true →
      Ready { s with pps := { ppsTake b s.pps with pos := p } } := fun p hp hnext => by
    have := ready_inPts (out := s.outq) (err := s.lastErr) hslot hsession htpdu
      (inExchange_take hexch hp hnext)
    rwa [← htop] at this
  cases hpos : s.pps.pos <;> simp only [ruleInPts, rulePps, hpos] at hu <;>
    rw [hpos] at hsoFar hgo
  case ptss =>
    cases hphase : s.pps.phase <;> simp only [hphase] at hu
    · cases hu
    · obtain rfl := Effect.done.inj hu
      exact hgo .pts0 nofun (ppsSoFar_put_ptss hsoFar)
  case pts0 =>
    obtain rfl := Effect.done.inj hu
    exact hgo _ (nextPos_ne_ptss _ _) (ppsSoFar_put_pts0 hsoFar)
  case pts1 =>
    obtain ⟨t, ht, rfl⟩ := rulePtsNext_done hu
    exact hgo _ (nextPos_ne_ptss _ _) (ppsSoFar_put_pts1 hsoFar ht)
  case pts2 =>
    obtain ⟨t, ht, rfl⟩ := rulePtsNext_done hu
    exact hgo _ (nextPos_ne_ptss _ _) (ppsSoFar_put_pts2 hsoFar ht)
  case pts3 =>
    obtain rfl := Effect.done.inj hu
    exact hgo .pck nofun (ppsSoFar_put_pts3 hsoFar)
  case pck =>
    cases hphase : s.pps.phase <;> simp only [hphase] at hu
    · obtain ⟨out, err, rfl⟩ := rulePckReq_done hu
      have := ready_inPts (out := out) (err := err) hslot hsession htpdu
        (inExchange_pckReq (b := b) hexch hphase hpos)
      rwa [← htop] at this
    · obtain ⟨r, out, err, rfl, hr⟩ := rulePckResp_done hu
      obtain ⟨-, -, hsize, -⟩ := hslot.params
      exact ⟨hslot.of_same ⟨rfl, rfl, rfl, rfl, rfl, rfl⟩,
        lineInv_waitApdu rfl (hsession.of_timing (hr hsession.timing)
          (x := []) hsize rfl rfl rfl rfl) rfl
          htpdu,
        by simp⟩

end

end Sys2Proof.Machine

/-! ## Line bytes keep the invariant: the TPDU (rules R220, R223, R251 to R265) -/

namespace Sys2Proof.Machine

/-! ### The TPDU registers -/

section
variable {r : TpduRegs} {b : Byte}

theorem InTpdu.sw0_none (h : InTpdu r) (hst : r.st ≠ .sw2) : r.ctx.sw0 = none :=
  not_not.mp fun hsw => hst (h.sw.mpr hsw)

/-- The registers while the header is read: a cleared context but for the header. -/
theorem inTpdu_header {st : TpduState} (hst : inHeader st) (hdr : Header) :
    InTpdu ⟨st, 0, { ApduCtx.cleared with hdr := hdr }⟩ where
  counters := countersInv_cleared
  started := by rintro rfl; simp [inHeader] at hst
  noSw1 := rfl
  header _ := ⟨rfl, rfl⟩
  body h := absurd hst h
  noBurst _ := rfl
  burst := by rintro rfl; simp [inHeader] at hst
  sw := by
    have hne : st ≠ .sw2 := by rintro rfl; simp [inHeader] at hst
    simp [hne, ApduCtx.cleared]

theorem InTpdu.header_eq (h : InTpdu r) (hst : inHeader r.st) :
    r = ⟨r.st, 0, { ApduCtx.cleared with hdr := r.ctx.hdr }⟩ := by
  obtain ⟨hleft, hctx⟩ := h.header hst
  rcases r with ⟨st, left, ctx⟩
  simp only at hleft hctx
  rw [hleft, ← hctx]

/-- The registers at a procedure byte, from a context with counters in order (rule R255). -/
theorem inTpdu_proc {c : ApduCtx} (hcounters : countersInv c) (hclass : Classified c)
    (hsw0 : c.sw0 = none) (hsw1 : c.sw1 = none) : InTpdu ⟨.proc, 0, c⟩ :=
  ⟨hcounters, nofun, hsw1, fun h => by simp [inHeader] at h, fun _ => hclass, fun _ => rfl, nofun,
    by simp [hsw0]⟩

theorem word_zero_toNat : (0 : Word).toNat = 0 := rfl

/-- P3 announces the length, at most 256 (rule R255). -/
theorem shortLe_le (b : Byte) : shortLe b ≤ 256 := by
  have := b.isLt
  unfold shortLe
  split_ifs <;> omega

theorem toNat_shortLe (b : Byte) : (BitVec.ofNat 32 (shortLe b)).toNat = shortLe b := by
  have := shortLe_le b
  rw [BitVec.toNat_ofNat]
  exact Nat.mod_eq_of_lt (by omega)

theorem toNat_lengthByte (b : Byte) : (BitVec.ofNat 32 b.toNat).toNat = b.toNat := by
  have := b.isLt
  rw [BitVec.toNat_ofNat]
  exact Nat.mod_eq_of_lt (by omega)

theorem inTpdu_fromCard (h : Header) (b : Byte) :
    InTpdu ⟨.proc, 0, { ApduCtx.cleared with
      hdr := h, apduCase := .case2
      le := ⟨0, BitVec.ofNat 32 (shortLe b)⟩, lc := ⟨0, 0⟩ }⟩ := by
  have hle := shortLe_le b
  refine inTpdu_proc ⟨?_, ?_, rfl, rfl, ?_, ?_⟩ (.inl ⟨rfl, rfl, ?_⟩) rfl rfl <;>
    simp only [toNat_shortLe, word_zero_toNat, deCap, dcCap] <;> omega

theorem inTpdu_toCard (h : Header) (b : Byte) :
    InTpdu ⟨.proc, 0, { ApduCtx.cleared with
      hdr := h, apduCase := .case3
      lc := ⟨0, BitVec.ofNat 32 b.toNat⟩, le := ⟨0, 0⟩ }⟩ := by
  have hlt := b.isLt
  refine inTpdu_proc ⟨?_, ?_, rfl, rfl, ?_, ?_⟩ (.inr ⟨rfl, rfl, ?_⟩) rfl rfl <;>
    simp only [toNat_lengthByte, word_zero_toNat, deCap, dcCap] <;> omega

theorem not_inHeader_proc : ¬ inHeader .proc := by simp [inHeader]

/-- SW1 ends the procedure bytes (rule R258). -/
theorem inTpdu_sw1 (h : InTpdu r) (hst : r.st = .proc) :
    InTpdu { r with st := .sw2, ctx := { r.ctx with sw0 := some b } } :=
  ⟨h.counters, nofun, h.noSw1, fun hin => by simp [inHeader] at hin,
    fun _ => h.body (hst ▸ not_inHeader_proc), fun _ => h.noBurst (by simp [hst]), nofun,
    ⟨fun _ => nofun, fun _ => rfl⟩⟩

/-- A burst within what remains is granted (rules R259, R260). -/
theorem inTpdu_grant {n : Word} (h : InTpdu r) (hst : r.st = .proc) (hn : n ≠ 0)
    (hrem : n.toNat ≤ ((remaining r.ctx).getD 0).toNat) :
    InTpdu { r with dataLeft := n, st := .data } :=
  ⟨h.counters, nofun, h.noSw1, fun hin => by simp [inHeader] at hin,
    fun _ => h.body (hst ▸ not_inHeader_proc), fun hne => absurd rfl hne, fun _ => ⟨hn, hrem⟩,
    ⟨nofun, fun hsw => absurd (h.sw0_none (by simp [hst])) hsw⟩⟩

/-- A counter with something left takes one more byte without wrapping (rules R262, R265). -/
theorem progress_step {p : Progress} {n : Word} (hle : p.cur.toNat ≤ p.tot.toNat) (hn : n ≠ 0)
    (hrem : n.toNat ≤ (p.tot - p.cur).toNat) :
    (p.cur + 1).toNat = p.cur.toNat + 1 ∧ (p.cur + 1).toNat ≤ p.tot.toNat
      ∧ (n - 1).toNat ≤ (p.tot - (p.cur + 1)).toNat := by
  rcases p with ⟨cur, tot⟩
  simp only at hle hrem ⊢
  refine ⟨?_, ?_, ?_⟩ <;> bv_omega

/-- What a stored byte leaves: counters in order, the same class and status bytes, and one byte less to
come (rule R265). -/
theorem storeByte_spec {c c' : ApduCtx} {n : Word} (hcounters : countersInv c)
    (hclass : Classified c) (hn : n ≠ 0) (hrem : n.toNat ≤ ((remaining c).getD 0).toNat)
    (hstore : storeByte b c = some c') :
    countersInv c' ∧ Classified c' ∧ c'.sw0 = c.sw0 ∧ c'.sw1 = c.sw1
      ∧ (n - 1).toNat ≤ ((remaining c').getD 0).toNat := by
  obtain ⟨hlc, hle, hdc, hde, hlcCap, hleCap⟩ := hcounters
  obtain ⟨hcase, htot, hmax⟩ | ⟨hcase, htot, hmax⟩ := hclass
  · simp only [remaining, hcase, Option.getD_some] at hrem
    obtain ⟨hcur, hle', hleft⟩ := progress_step hle hn hrem
    simp only [storeByte, hcase, Option.some.injEq] at hstore
    subst hstore
    have hlen : (c.de ++ [b]).length = (c.le.cur + 1).toNat := by
      rw [List.length_append, hde, hcur]
      rfl
    exact ⟨⟨hlc, hle', hdc, hlen, hlcCap, hleCap⟩, .inl ⟨rfl, htot, hmax⟩, rfl, rfl, hleft⟩
  · simp only [remaining, hcase, Option.getD_some] at hrem
    obtain ⟨hcur, hlc', hleft⟩ := progress_step hlc hn hrem
    simp only [storeByte, hcase, Option.some.injEq] at hstore
    subst hstore
    have hlen : (c.dc ++ [b]).length = (c.lc.cur + 1).toNat := by
      rw [List.length_append, hdc, hcur]
      rfl
    exact ⟨⟨hlc', hle, hlen, hde, hlcCap, hleCap⟩, .inr ⟨rfl, htot, hmax⟩, rfl, rfl, hleft⟩

/-- A data byte: the burst goes on, or it ends at a procedure byte (rule R262). -/
theorem inTpdu_data {c : ApduCtx} (h : InTpdu r) (hst : r.st = .data)
    (hstore : storeByte b r.ctx = some c) :
    InTpdu ⟨if r.dataLeft - 1 = 0 then .proc else r.st, r.dataLeft - 1, c⟩ := by
  have hbody : ¬ inHeader r.st := by simp [hst, inHeader]
  obtain ⟨hleft, hrem⟩ := h.burst hst
  obtain ⟨hcounters, hclass, hsw0, hsw1, hrem'⟩ :=
    storeByte_spec h.counters (h.body hbody) hleft hrem hstore
  have hsw0 : c.sw0 = none := by rw [hsw0]; exact h.sw0_none (by simp [hst])
  by_cases hend : r.dataLeft - 1 = 0
  · rw [if_pos hend, hend]
    exact inTpdu_proc hcounters hclass hsw0 (hsw1.trans h.noSw1)
  · rw [if_neg hend, hst]
    exact ⟨hcounters, nofun, hsw1.trans h.noSw1, fun hin => by simp [inHeader] at hin,
      fun _ => hclass, fun hne => absurd rfl hne, fun _ => ⟨hend, hrem'⟩, by simp [hsw0]⟩

end

/-! ### The rules -/

/-- A TPDU rule goes on with the TPDU: registers that meet the invariant, and `LAST_ERR` and `OUTQ`. -/
def GoesOn (s u : State) : Prop :=
  ∃ r out err, InTpdu r ∧ u = { s with tpdu := r, outq := out, lastErr := err }

section
variable {s u : State} {b : Byte}

theorem GoesOn.of_regs {r : TpduRegs} (h : InTpdu r) : GoesOn s { s with tpdu := r } :=
  ⟨r, s.outq, s.lastErr, h, rfl⟩

theorem GoesOn.refl (h : InTpdu s.tpdu) : GoesOn s s := .of_regs h

/-- A header byte before P3 (rules R252 to R254). -/
theorem goesOn_header (h : InTpdu s.tpdu) (hst : inHeader s.tpdu.st) {st : TpduState}
    (hst' : inHeader st) (hdr : Header) :
    GoesOn s (setTpdu st { s.tpdu.ctx with hdr := hdr } s) := by
  have hregs : ({ s.tpdu with st := st, ctx := { s.tpdu.ctx with hdr := hdr } } : TpduRegs)
      = ⟨st, 0, { ApduCtx.cleared with hdr := hdr }⟩ := by
    rw [h.header_eq hst]
  have hgo : GoesOn s { s with
      tpdu := { s.tpdu with st := st, ctx := { s.tpdu.ctx with hdr := hdr } } } := by
    rw [hregs]
    exact .of_regs (inTpdu_header hst' hdr)
  exact hgo

/-- P3 (rule R255). -/
theorem ruleP3_goesOn (h : InTpdu s.tpdu) (hst : inHeader s.tpdu.st)
    (hu : ruleP3 b s = .done u) : GoesOn s u := by
  have hregs := h.header_eq hst
  cases hdir : lineDir s.params.lineCase { s.tpdu.ctx.hdr with p3 := b } with
  | fromCard =>
    simp only [ruleP3, hdir] at hu
    obtain rfl := Effect.done.inj hu
    have hgo := GoesOn.of_regs (s := s) (inTpdu_fromCard { s.tpdu.ctx.hdr with p3 := b } b)
    simp only [setTpdu]
    rw [hregs]
    exact hgo
  | toCard =>
    simp only [ruleP3, hdir] at hu
    obtain rfl := Effect.done.inj hu
    have hgo := GoesOn.of_regs (s := s) (inTpdu_toCard { s.tpdu.ctx.hdr with p3 := b } b)
    simp only [setTpdu]
    rw [hregs]
    exact hgo

/-- ACK: a burst of `n` bytes if anything remains (rules R259, R260). -/
theorem goesOn_ack (h : InTpdu s.tpdu) (hst : s.tpdu.st = .proc) {m n : Word}
    (hm : remaining s.tpdu.ctx = some m) (hn : m ≠ 0 → n ≠ 0 ∧ n.toNat ≤ m.toNat) :
    GoesOn s (if m = 0 then s else grant n s) := by
  split_ifs with hzero
  · exact .refl h
  · obtain ⟨hne, hle⟩ := hn hzero
    exact .of_regs (inTpdu_grant h hst hne (by rw [hm]; exact hle))

/-- A procedure byte (rules R257 to R261). -/
theorem ruleProc_goesOn (h : InTpdu s.tpdu) (hst : s.tpdu.st = .proc)
    (hu : ruleProc b s = .done u) : GoesOn s u := by
  have hsw1 : InTpdu { s.tpdu with st := .sw2, ctx := { s.tpdu.ctx with sw0 := some b } } :=
    inTpdu_sw1 h hst
  unfold ruleProc at hu
  split at hu
  next =>
    obtain rfl := Effect.done.inj hu
    exact .refl h
  next =>
    obtain rfl := Effect.done.inj hu
    exact .of_regs hsw1
  next =>
    unfold rulePbAckAll at hu
    split at hu
    · cases hu
    next n hn =>
      obtain rfl := Effect.done.inj hu
      exact goesOn_ack h hst hn fun hne => ⟨hne, le_rfl⟩
  next =>
    unfold rulePbAckOne at hu
    split at hu
    · cases hu
    next n hn =>
      obtain rfl := Effect.done.inj hu
      exact goesOn_ack h hst hn fun hne => ⟨by decide, by bv_omega⟩
  next =>
    cases hpb : s.params.unexpectedPb <;> simp only [rulePbOther, raise_params, hpb] at hu
    · obtain rfl := Effect.done.inj hu
      exact ⟨_, _, _, hsw1, rfl⟩
    · obtain rfl := Effect.done.inj hu
      exact ⟨_, _, _, h, rfl⟩

/-- A byte in `InApdu`, after the append: the TPDU goes on, or SW2 completes it (rule R220). -/
theorem ruleTpdu_done (h : InTpdu s.tpdu) (hu : ruleTpdu b s = .done u) :
    GoesOn s u ∨ ∃ out, u = { s with top := .waitApdu, tpdu := .cleared, outq := out } := by
  cases hst : s.tpdu.st <;> simp only [ruleTpdu, hst] at hu
  case idle => cases hu
  case hdrIns | hdrP1 | hdrP2 =>
    obtain rfl := Effect.done.inj hu
    exact .inl (goesOn_header h (by simp [inHeader, hst]) (by simp [inHeader]) _)
  case hdrP3 => exact .inl (ruleP3_goesOn h (by simp [inHeader, hst]) hu)
  case proc => exact .inl (ruleProc_goesOn h hst hu)
  case data =>
    unfold ruleData at hu
    split at hu
    · cases hu
    next c hstore =>
      obtain rfl := Effect.done.inj hu
      exact .inl (.of_regs (inTpdu_data h hst hstore))
  case sw2 =>
    obtain rfl := Effect.done.inj hu
    exact .inr ⟨_, rfl⟩

end

/-! ### The slot -/

section
variable {s u : State} {b : Byte}

/-- `OBUF` never stays full (rule R232). -/
theorem appendedObuf_length_lt {size : Nat} {x : List Byte} (b : Byte) (h : x.length < size) :
    (appendedObuf size x b).length < size := by
  unfold appendedObuf
  split_ifs with hfull
  · exact Nat.lt_of_le_of_lt (Nat.zero_le _) h
  · rw [List.length_append, List.length_singleton]
    omega

/-- A TPDU byte that goes on with the TPDU. -/
theorem ready_inApdu {r : TpduRegs} {out : List Record} {err : Option ErrInfo} (hslot : SlotInv s)
    (hsession : Session s) (hpps : s.pps = .cleared) (hr : InTpdu r) :
    Ready { s with
      obuf := appendedObuf s.params.obufSize s.obuf b
      top := .inApdu, tpdu := r, outq := out, lastErr := err } :=
  ⟨hslot.of_same ⟨rfl, rfl, rfl, rfl, rfl, rfl⟩,
    lineInv_inApdu rfl (hsession.of_timing hsession.timing
      (appendedObuf_length_lt b hsession.obuf) rfl rfl rfl rfl) hpps hr,
    by simp⟩

/-- A byte in `InApdu` (rule R220). -/
theorem ruleInApdu_ready (hslot : SlotInv s) (hline : LineInv s) (htop : s.top = .inApdu)
    (hu : ruleInApdu b s = .done u) : Ready u := by
  have hsession := hline.session (by simp [beforeAtr, htop])
  have hpps := hline.pps_cleared (by simp [htop])
  have hregs : InTpdu (obufAppend b s).tpdu := by
    rw [obufAppend_tpdu]
    exact hline.inTpdu htop
  obtain ⟨r, out, err, hr, rfl⟩ | ⟨out, rfl⟩ := ruleTpdu_done hregs hu
  · have hready := ready_inApdu (b := b) (out := out) (err := err) hslot hsession hpps hr
    rw [obufAppend_eq]
    rwa [← htop] at hready
  · rw [obufAppend_eq]
    exact ⟨hslot.of_same ⟨rfl, rfl, rfl, rfl, rfl, rfl⟩,
      lineInv_waitApdu rfl (hsession.of_timing hsession.timing
        (appendedObuf_length_lt b hsession.obuf) rfl rfl rfl rfl) hpps rfl,
      by simp⟩

/-- A byte in `WaitApdu`: it opens a PPS exchange or a TPDU (rule R223). -/
theorem ruleWaitApdu_ready (hslot : SlotInv s) (hline : LineInv s) (htop : s.top = .waitApdu)
    (hu : ruleWaitApdu b s = .done u) : Ready u := by
  have hsession := hline.session (by simp [beforeAtr, htop])
  unfold ruleWaitApdu at hu
  split_ifs at hu
  · obtain rfl := Effect.done.inj hu
    exact ready_inPts (s := s) (out := s.outq) (err := s.lastErr) hslot hsession
      (hline.tpdu_cleared (by simp [htop])) inExchange_entry
  · obtain rfl := Effect.done.inj hu
    rw [obufAppend_eq]
    exact ready_inApdu (err := s.lastErr) hslot hsession (hline.pps_cleared (by simp [htop]))
      (inTpdu_header (.inl rfl) ⟨b, 0, 0, 0, 0⟩)

/-- Every line byte keeps the invariant (rules R210, R211, R236). -/
theorem lineEvent_keeps_inv {t : State} {dir pe oe fe : Bool} (hs : Inv s)
    (h : lineEvent dir pe oe fe b s = .next t) : Inv t := by
  obtain ⟨hslot, hline, -⟩ := inv_iff.mp hs
  obtain rfl | rfl | h := lineEvent_next h
  · exact hs
  · exact inv_raise.mpr hs
  cases htop : s.top <;> simp only [linePhase, htop] at h
  case reset =>
    cases h
    exact hs
  case waitAtr => exact handLine_keeps_inv hs (fun _ => ruleWaitAtr_ready hslot hline htop) h
  case inAtr => exact handLine_keeps_inv hs (fun _ => ruleInAtr_ready hslot hline htop) h
  case waitApdu => exact handLine_keeps_inv hs (fun _ => ruleWaitApdu_ready hslot hline htop) h
  case inApdu => exact handLine_keeps_inv hs (fun _ => ruleInApdu_ready hslot hline htop) h
  case inPts => exact handLine_keeps_inv hs (fun _ => ruleInPts_ready hslot hline htop) h

end

end Sys2Proof.Machine

/-! ## The other events keep the invariant -/

namespace Sys2Proof.Machine

section
variable {s t : State}

/-! ### Phase entries (rules R212, R213) -/

theorem enterReset_keeps_inv (hs : Inv s) : Inv (enterReset s) := by
  obtain ⟨hslot, -, -⟩ := inv_iff.mp hs
  rw [enterReset_eq]
  exact inv_iff.mpr ⟨hslot.of_same ⟨rfl, rfl, rfl, rfl, rfl, rfl⟩,
    lineInv_noAtr hslot.params (.inl rfl) ⟨rfl, rfl, rfl, rfl⟩ rfl, timerInv_of_disarmed rfl⟩

/-- `WaitAtr` entry leaves `OBUF` alone; it is entered from the phases where `OBUF` is empty. -/
theorem enterWaitAtr_keeps_inv (hs : Inv s) (htop : beforeAtr s.top) : Inv (enterWaitAtr s) := by
  obtain ⟨hslot, hline, -⟩ := inv_iff.mp hs
  rw [enterWaitAtr_eq]
  exact inv_iff.mpr ⟨hslot.of_same ⟨rfl, rfl, rfl, rfl, rfl, rfl⟩,
    lineInv_noAtr hslot.params (.inr rfl) ⟨rfl, (hline.isFresh htop).obuf, rfl, rfl⟩ rfl,
    timerInv_of_disarmed rfl⟩

/-! ### The WT expiry (rules R225 to R230) -/

theorem disarmed_keeps_inv (hs : Inv s) :
    Inv { s with timer := { s.timer with armed := false } } := by
  obtain ⟨hslot, hline, -⟩ := inv_iff.mp hs
  exact inv_iff.mpr ⟨hslot.of_same ⟨rfl, rfl, rfl, rfl, rfl, rfl⟩,
    ⟨hline.timing, hline.fresh, hline.obuf, hline.atr, hline.pps, hline.tpdu⟩,
    timerInv_of_disarmed rfl⟩

/-- The slot after an expiry that follows the ATR: in `WaitApdu`, with `OBUF` flushed and the exchange
dropped (rules R228 to R230). -/
def expired (s : State) : State :=
  { s with
    top := .waitApdu, obuf := [], pps := .cleared, tpdu := .cleared
    outq := s.outq ++ flushed .wtExpiry s.obuf }

theorem expiryWaitApdu_eq (hline : LineInv s) (htop : s.top = .waitApdu) :
    expiryWaitApdu s = .done (expired s) := by
  rw [expired, ← htop, ← hline.pps_cleared (by simp [htop]), ← hline.tpdu_cleared (by simp [htop]),
    expiryWaitApdu, flush_eq]

theorem expiryInApdu_eq (hline : LineInv s) (htop : s.top = .inApdu) :
    expiryInApdu s = .done (expired s) := by
  rw [expired, ← hline.pps_cleared (by simp [htop]), expiryInApdu, flush_eq]
  rfl

theorem expiryInPts_eq (hline : LineInv s) (htop : s.top = .inPts) :
    expiryInPts s = .done (expired s) := by
  rw [expired, ← hline.tpdu_cleared (by simp [htop]), expiryInPts, flush_eq]
  rfl

theorem expired_keeps_inv (hs : Inv s) (harm : s.timer.armed = false) (htop : ¬ beforeAtr s.top) :
    Inv (expired s) := by
  obtain ⟨hslot, hline, -⟩ := inv_iff.mp hs
  have hsession := hline.session htop
  obtain ⟨-, -, hsize, -⟩ := hslot.params
  exact inv_iff.mpr ⟨hslot.of_same ⟨rfl, rfl, rfl, rfl, rfl, rfl⟩,
    lineInv_waitApdu rfl (hsession.of_timing hsession.timing (x := []) hsize rfl rfl rfl rfl) rfl
      rfl,
    timerInv_of_disarmed harm⟩

theorem handExpiry_keeps_inv {rule : State → Effect} (hs : Inv s)
    (hrule : ∀ u v : State, Inv u → u.timer.armed = false → u.top = s.top → rule u = .done v → Inv v)
    (h : handExpiry rule s = .next t) : Inv t := by
  obtain hdone | ⟨f, -, rfl⟩ := handExpiry_next s rule t h
  · exact hrule _ _ (disarmed_keeps_inv hs) rfl rfl hdone
  · exact inv_enterFault.mpr hs

/-- An admitted expiry in a phase after the ATR. -/
theorem handExpiry_expired_keeps_inv {rule : State → Effect} (hs : Inv s)
    (htop : ¬ beforeAtr s.top)
    (hrule : ∀ u, LineInv u → u.top = s.top → rule u = .done (expired u))
    (h : handExpiry rule s = .next t) : Inv t := by
  refine handExpiry_keeps_inv hs (fun u v hu harm hutop hv => ?_) h
  obtain ⟨-, hline, -⟩ := inv_iff.mp hu
  rw [hrule u hline hutop] at hv
  obtain rfl := Effect.done.inj hv
  exact expired_keeps_inv hu harm (hutop ▸ htop)

/-- Every WT expiry keeps the invariant (rule R225). -/
theorem expiryEvent_keeps_inv (hs : Inv s) (h : expiryEvent s = .next t) : Inv t := by
  obtain rfl | h := expiryEvent_next h
  · exact hs
  cases htop : s.top <;> simp only [expiryPhase, htop] at h
  case reset => cases h
  case waitAtr =>
    refine handExpiry_keeps_inv hs (fun u v hu _ _ hv => ?_) h
    obtain rfl := Effect.done.inj hv
    exact hu
  case inAtr =>
    refine handExpiry_keeps_inv hs (fun u v hu _ hutop hv => ?_) h
    unfold expiryInAtr at hv
    split at hv
    · obtain rfl := Effect.done.inj hv
      exact hu
    · obtain rfl := Effect.done.inj hv
      exact enterWaitAtr_keeps_inv hu (.inr (.inr (hutop.trans htop)))
  case waitApdu =>
    exact handExpiry_expired_keeps_inv hs (by simp [beforeAtr, htop])
      (fun u hu hutop => expiryWaitApdu_eq hu (hutop.trans htop)) h
  case inApdu =>
    exact handExpiry_expired_keeps_inv hs (by simp [beforeAtr, htop])
      (fun u hu hutop => expiryInApdu_eq hu (hutop.trans htop)) h
  case inPts =>
    exact handExpiry_expired_keeps_inv hs (by simp [beforeAtr, htop])
      (fun u hu hutop => expiryInPts_eq hu (hutop.trans htop)) h

/-! ### Signals and `CARD_INSERT` (rules R214 to R219) -/

/-- A new `STATUS` that keeps `RCEMU_ACTIVE` (rule R22). -/
theorem status_keeps_inv {f : Flags} {out : List Record} (hs : Inv s)
    (hf : rcemuFlag f = rcemuFlag s.status) : Inv { s with status := f, outq := out } := by
  obtain ⟨hslot, hline, htimer⟩ := inv_iff.mp hs
  exact inv_iff.mpr ⟨⟨hslot.params, hslot.mode, hf.trans hslot.rcemu, hslot.atrCfg, hslot.bridge⟩,
    ⟨hline.timing, hline.fresh, hline.obuf, hline.atr, hline.pps, hline.tpdu⟩, htimer⟩

theorem recordLevels_keeps_inv (hs : Inv s) (rst vcc clk : Bool) :
    Inv (recordLevels rst vcc clk s) :=
  status_keeps_inv (s := s) hs (by simp [withLevels])

theorem fallToReset_keeps_inv (hs : Inv s) : Inv (fallToReset s) := by
  unfold fallToReset
  split_ifs
  · exact hs
  · exact enterReset_keeps_inv hs

theorem releaseReset_keeps_inv (hs : Inv s) (wasReset : Bool) : Inv (releaseReset wasReset s) := by
  unfold releaseReset
  split_ifs with h
  · exact enterWaitAtr_keeps_inv hs (.inl h.2)
  · exact hs

/-- An event of a live slot that answers one next state. -/
theorem whenLive_keeps_inv {f : State → State} (hs : Inv s) (hf : Inv (f s))
    (h : whenLive (fun s => .next (f s)) s = .next t) : Inv t := by
  obtain rfl | ⟨-, h⟩ := whenLive_next h
  · exact hs
  · obtain rfl := Host.Outcome.next.inj h
    exact hf

/-- Every signal keeps the invariant (rule R214). -/
theorem signalEvent_keeps_inv {clk vcc rst : Bool} (hs : Inv s)
    (h : signalEvent clk vcc rst s = .next t) : Inv t := by
  have hlevels := recordLevels_keeps_inv hs rst vcc clk
  refine whenLive_keeps_inv hs ?_ h
  split_ifs
  · exact fallToReset_keeps_inv hlevels
  · exact fallToReset_keeps_inv hlevels
  · exact releaseReset_keeps_inv hlevels _

theorem cardInsertEvent_keeps_inv {ins : Bool} (hs : Inv s)
    (h : cardInsertEvent ins s = .next t) : Inv t :=
  whenLive_keeps_inv hs (status_keeps_inv (s := s) hs (by simp [withCardInsert])) h

/-! ### `ATR_SET` (rule R160) -/

/-- A complete ATR fits the buffer (rules R142, R154). -/
theorem parseFrom_complete_length {atrMax : Nat} {wiIdx : Byte} {x : List Byte} :
    ∀ {r : AtrRegs} {a a' : AtrStruct} {used : Nat}, r.buf.length ≤ atrMax →
      parseFrom atrMax wiIdx r a used x = .complete a' → r.buf.length + x.length ≤ atrMax := by
  induction x with
  | nil => intro r a a' used hfits _; simpa using hfits
  | cons b x ih =>
    intro r a a' used hfits h
    unfold parseFrom at h
    split_ifs at h with hdone hfull
    have hlen : (takeAtrByte wiIdx b { r with buf := r.buf ++ [b] }).buf.length
        = r.buf.length + 1 := by simp
    have hrest := ih (by omega) h
    rw [hlen] at hrest
    rw [List.length_cons]
    omega

theorem atrCfg_keeps_inv {x : List Byte} (hs : Inv s) (hfits : x.length ≤ s.params.atrMax)
    (hx : x = [] ∨ ∃ a, atrParse s.params x = .complete a) : Inv { s with atrCfg := x } := by
  obtain ⟨hslot, hline, htimer⟩ := inv_iff.mp hs
  exact inv_iff.mpr ⟨⟨hslot.params, hslot.mode, hslot.rcemu, ⟨hfits, hx⟩, hslot.bridge⟩,
    ⟨hline.timing, hline.fresh, hline.obuf, hline.atr, hline.pps, hline.tpdu⟩, htimer⟩

theorem setAtr_keeps_inv (x : List Byte) (hs : Inv s) : Inv (setAtr x s) := by
  unfold setAtr
  split_ifs with hx
  · exact atrCfg_keeps_inv hs (Nat.zero_le _) (.inl rfl)
  · split
    next a hparse =>
      have hfits := parseFrom_complete_length (Nat.zero_le _) hparse
      exact atrCfg_keeps_inv hs (by simpa [AtrRegs.cleared] using hfits) (.inr ⟨a, hparse⟩)
    next => exact inv_raise.mpr hs
    next => exact inv_raise.mpr hs
    next => exact inv_raise.mpr hs

/-- No event of the line side breaks the invariant. -/
theorem lineSide_keeps_inv {k : State → Answer} (hk : LineSide k) (hs : Inv s)
    (h : k s = .next t) : Inv t := by
  cases hk with
  | lineByte => exact lineEvent_keeps_inv hs h
  | wtExpiry => exact expiryEvent_keeps_inv hs h
  | signal => exact signalEvent_keeps_inv hs h
  | cardInsert => exact cardInsertEvent_keeps_inv hs h
  | atrSet x => exact whenLive_keeps_inv hs (setAtr_keeps_inv x hs) h
  | query r =>
    exact whenLive_keeps_inv (f := fun s => { s with queryPort := some (r s.params) }) hs hs h
  | reserved => exact whenLive_keeps_inv hs (inv_enterFault.mpr hs) h

/-! ### The bridge (rules R293 to R299) -/

theorem Inv.bridgeInv (hs : Inv s) : bridgeInv s.bridge := (inv_iff.mp hs).1.bridge

/-- New bridge registers in order keep the invariant; what is emitted and reported is no part of it. -/
theorem bridge_keeps_inv {b : Bridge} {out : List Record} {err : Option ErrInfo} (hs : Inv s)
    (hb : Machine.bridgeInv b) : Inv { s with bridge := b, outq := out, lastErr := err } := by
  obtain ⟨hslot, hline, htimer⟩ := inv_iff.mp hs
  exact inv_iff.mpr ⟨⟨hslot.params, hslot.mode, hslot.rcemu, hslot.atrCfg, hb⟩,
    ⟨hline.timing, hline.fresh, hline.obuf, hline.atr, hline.pps, hline.tpdu⟩, htimer⟩

/-- Stopping is no part of the invariant of the bridge. -/
theorem bridgeFatal_keeps_inv (hs : Inv s) (e : BridgeErr) : Inv (bridgeFatal e s) :=
  bridge_keeps_inv hs hs.bridgeInv

/-- A command is handed over when all its data has come (rules R295, R296). -/
theorem bridgeInv_forwarded {b : Bridge} (hb : bridgeInv b) (hvalid : b.valid = true)
    (hall : ¬ b.ctx.lc.cur.toNat < b.ctx.lc.tot.toNat) :
    bridgeInv { b with forwarded := true } := by
  obtain ⟨hcounters, -, hclass, -, -, hsw⟩ := hb
  have hcur : b.ctx.lc.cur = b.ctx.lc.tot :=
    BitVec.eq_of_toNat_eq (Nat.le_antisymm hcounters.1 (Nat.not_lt.mp hall))
  exact ⟨hcounters, fun h => absurd (h.symm.trans hvalid) (by decide), hclass, fun _ => hcur, nofun,
    hsw⟩

theorem bridgeDispatch_keeps_inv (hs : Inv s) (hvalid : s.bridge.valid = true)
    (h : bridgeDispatch s = .done t) : Inv t := by
  obtain ⟨-, h⟩ | ⟨hall, -, ⟨-, h⟩ | ⟨x, -, h⟩⟩ | ⟨-, -, ⟨_, _, -, -, h⟩ | ⟨-, h⟩⟩ :=
    bridgeDispatch_cases s _ h
  · obtain rfl := Effect.done.inj h
    exact hs
  · cases h
  · obtain rfl := Effect.done.inj h
    exact bridge_keeps_inv (s := s) hs (bridgeInv_forwarded hs.bridgeInv hvalid hall)
  · obtain rfl := Effect.done.inj h
    exact hs
  · obtain rfl := Effect.done.inj h
    exact bridgeFatal_keeps_inv hs _

/-! #### A new segment -/

/-- What the discriminator's numbers are bounded by (rules R290 to R292). -/
structure CaseInfo.Fits (seg : List Byte) (r : CaseInfo) : Prop where
  classified : r.c ≠ .unclassified
  lc : r.lcTot ≤ dcCap
  le : r.leTot ≤ deCap
  avail : min r.avail r.lcTot ≤ seg.length - r.off

theorem segByte_lt (seg : List Byte) (k : Nat) : segByte seg k < 256 := (seg.getD k 0#8).isLt

theorem segLen_lt (seg : List Byte) (k : Nat) : segLen seg k < 65536 := by
  have h1 := segByte_lt seg k
  have h2 := segByte_lt seg (k + 1)
  unfold segLen
  omega

theorem leShort_le {v : Nat} (h : v < 256) : leShort v ≤ deCap := by
  unfold leShort deCap
  split_ifs <;> omega

theorem leExt_le {v : Nat} (h : v < 65536) : leExt v ≤ deCap := by
  unfold leExt deCap
  split_ifs <;> omega

theorem classifyExt_fits {seg : List Byte} {r : CaseInfo} (h : classifyExt seg = .case r) :
    r.Fits seg := by
  have hlc := segLen_lt seg 5
  have hcap : dcCap = 65535 := rfl
  unfold classifyExt at h
  simp only at h
  split_ifs at h <;> obtain rfl := CaseResult.case.inj h
  · exact ⟨nofun, Nat.zero_le _, leExt_le hlc, by simp⟩
  · exact ⟨nofun, by simp only; omega, Nat.zero_le _, by simp only; omega⟩
  · exact ⟨nofun, by simp only; omega, leExt_le (segLen_lt seg _), by simp only; omega⟩

theorem classifyCase_fits {seg : List Byte} {r : CaseInfo} (h : classifyCase seg = .case r) :
    r.Fits seg := by
  have hp3 : (if 5 ≤ seg.length then segByte seg 4 else 0) < 256 := by
    split_ifs
    · exact segByte_lt seg 4
    · omega
  have hcap : dcCap = 65535 := rfl
  unfold classifyCase at h
  simp only at h
  generalize (if 5 ≤ seg.length then segByte seg 4 else 0) = p3 at h hp3
  split_ifs at h
  · obtain rfl := CaseResult.case.inj h
    exact ⟨nofun, Nat.zero_le _, Nat.zero_le _, by simp⟩
  · obtain rfl := CaseResult.case.inj h
    exact ⟨nofun, Nat.zero_le _, leShort_le hp3, by simp⟩
  · obtain rfl := CaseResult.case.inj h
    exact ⟨nofun, by simp only; omega, Nat.zero_le _, by simp only; omega⟩
  · obtain rfl := CaseResult.case.inj h
    exact ⟨nofun, by simp only; omega, Nat.zero_le _, by simp only; omega⟩
  · obtain rfl := CaseResult.case.inj h
    exact ⟨nofun, by simp only; omega, leShort_le (segByte_lt seg _), by simp only; omega⟩
  · exact classifyExt_fits h

theorem toNat_ofNat_word {n : Nat} (h : n ≤ 65536) : (BitVec.ofNat 32 n).toNat = n := by
  rw [BitVec.toNat_ofNat]
  exact Nat.mod_eq_of_lt (by omega)

/-- The context of a new segment: its counters are those of the data it brings (rule R293). -/
theorem countersInv_newCtx {seg : List Byte} {r : CaseInfo} (h : r.Fits seg) :
    countersInv (newCtx seg r) := by
  have hlcCap := h.lc
  have hleCap := h.le
  have havail := h.avail
  have hmin := Nat.min_le_right r.avail r.lcTot
  simp only [dcCap] at hlcCap
  simp only [deCap] at hleCap
  have hcur : (BitVec.ofNat 32 (min r.avail r.lcTot)).toNat = min r.avail r.lcTot :=
    toNat_ofNat_word (by omega)
  have hlc : (BitVec.ofNat 32 r.lcTot).toNat = r.lcTot := toNat_ofNat_word (by omega)
  have hle : (BitVec.ofNat 32 r.leTot).toNat = r.leTot := toNat_ofNat_word (by omega)
  refine ⟨?_, ?_, ?_, rfl, ?_, ?_⟩ <;> simp only [newCtx, hcur, hlc, hle, word_zero_toNat]
  · exact hmin
  · exact Nat.zero_le _
  · rw [List.length_take, List.length_drop]
    omega
  · exact h.lc
  · exact h.le

theorem segNew_keeps_inv {seg : List Byte} (hs : Inv s) (h : segNew seg s = .done t) : Inv t := by
  unfold segNew at h
  split at h
  next =>
    obtain rfl := Effect.done.inj h
    exact inv_raise.mpr hs
  next =>
    obtain rfl := Effect.done.inj h
    exact bridgeFatal_keeps_inv hs _
  next =>
    obtain rfl := Effect.done.inj h
    exact bridgeFatal_keeps_inv hs _
  next r hr =>
    have hfits := classifyCase_fits hr
    have hb : bridgeInv { s.bridge with
        ctx := newCtx seg r, valid := true, forwarded := false, ext := r.ext } :=
      ⟨countersInv_newCtx hfits, fun hv => (by cases hv), fun _ => hfits.classified,
        fun hf => (by cases hf), fun _ => ⟨rfl, rfl⟩, Iff.rfl⟩
    exact bridgeDispatch_keeps_inv (bridge_keeps_inv (s := s) (out := s.outq) (err := s.lastErr) hs
      hb) rfl h

/-! #### A continuation segment -/

/-- A segment that is owed data adds no more than is owed (rule R294). -/
theorem countersInv_contCtx {c : ApduCtx} (seg : List Byte) (h : countersInv c) :
    countersInv (contCtx seg c) := by
  obtain ⟨hlc, hle, hdc, hde, hlcCap, hleCap⟩ := h
  have hcap : c.lc.tot.toNat ≤ 65535 := hlcCap
  have hmin : min seg.length (c.lc.tot.toNat - c.lc.cur.toNat) ≤ c.lc.tot.toNat - c.lc.cur.toNat :=
    Nat.min_le_right _ _
  have hn := toNat_ofNat_word
    (n := min seg.length (c.lc.tot.toNat - c.lc.cur.toNat)) (by omega)
  have hcur : (c.lc.cur + BitVec.ofNat 32 (min seg.length (c.lc.tot.toNat - c.lc.cur.toNat))).toNat
      = c.lc.cur.toNat + min seg.length (c.lc.tot.toNat - c.lc.cur.toNat) := by
    rw [BitVec.toNat_add, hn]
    exact Nat.mod_eq_of_lt (by omega)
  refine ⟨?_, hle, ?_, hde, hlcCap, hleCap⟩
  · simp only [contCtx, hcur]
    omega
  · simp only [contCtx, hcur, List.length_append, List.length_take, hdc]
    omega

theorem segCont_keeps_inv {seg : List Byte} (hs : Inv s) (h : segCont seg s = .done t) : Inv t := by
  unfold segCont at h
  split_ifs at h with howed
  · obtain rfl := Effect.done.inj h
    exact bridgeFatal_keeps_inv hs _
  · obtain ⟨hvalid, hfwd, -⟩ : s.bridge.valid = true ∧ s.bridge.forwarded = false ∧ _ := by
      simpa [contOwed] using howed
    obtain ⟨hcounters, -, hclass, -, hopen, hsw⟩ := hs.bridgeInv
    have hb : bridgeInv { s.bridge with ctx := contCtx seg s.bridge.ctx } :=
      ⟨countersInv_contCtx seg hcounters, fun hv => absurd (hv.symm.trans hvalid) (by decide),
        hclass, fun hf => absurd (hf.symm.trans hfwd) (by decide), hopen, hsw⟩
    exact bridgeDispatch_keeps_inv (bridge_keeps_inv (s := s) (out := s.outq) (err := s.lastErr) hs
      hb) hvalid h

/-! #### The card's answer -/

/-- The answer's data is cut to what Le asks for (rule R297). -/
theorem countersInv_respCtx {c : ApduCtx} {r : List Byte} (h : countersInv c)
    (hlen : 2 ≤ r.length) : countersInv (respCtx r c) := by
  obtain ⟨hlc, -, hdc, -, hlcCap, hleCap⟩ := h
  have hcap : c.le.tot.toNat ≤ 65536 := hleCap
  have hmin := Nat.min_le_right (r.length - 2) c.le.tot.toNat
  have hn := toNat_ofNat_word (n := min (r.length - 2) c.le.tot.toNat) (by omega)
  refine ⟨hlc, ?_, hdc, ?_, hlcCap, hleCap⟩
  · simp only [respCtx, hn]
    exact hmin
  · simp only [respCtx, hn, List.length_take]
    omega

/-- An answer of at least two bytes brings both status bytes (rule R297). -/
theorem respCtx_sw {c : ApduCtx} {r : List Byte} (hlen : 2 ≤ r.length) :
    (respCtx r c).sw0 ≠ none ∧ (respCtx r c).sw1 ≠ none := by
  simp only [respCtx, ne_eq, List.getElem?_eq_none_iff]
  omega

theorem cardAnswer_keeps_inv {r : List Byte} (hs : Inv s) (h : cardAnswer r s = .done t) :
    Inv t := by
  unfold cardAnswer at h
  simp only at h
  split_ifs at h with hshort hunexpected
  · obtain rfl := Effect.done.inj h
    exact inv_raise.mpr hs
  · obtain rfl := Effect.done.inj h
    exact inv_raise.mpr hs
  · have hlen : 2 ≤ r.length := by omega
    obtain ⟨⟨hvalid, hfwd⟩, -⟩ :
        (s.bridge.valid = true ∧ s.bridge.forwarded = true) ∧ s.bridge.ctx.sw0 = none := by
      simpa [Classical.not_imp] using hunexpected
    obtain ⟨hcounters, -, hclass, hall, -, -⟩ := hs.bridgeInv
    obtain ⟨hsw0, hsw1⟩ := respCtx_sw (c := s.bridge.ctx) hlen
    have hb : bridgeInv { s.bridge with ctx := respCtx r s.bridge.ctx } :=
      ⟨countersInv_respCtx hcounters hlen, fun hv => absurd (hv.symm.trans hvalid) (by decide),
        hclass, hall, fun hf => absurd (hf.symm.trans hfwd) (by decide), iff_of_false hsw0 hsw1⟩
    exact bridgeDispatch_keeps_inv (bridge_keeps_inv (s := s) (out := s.outq) (err := s.lastErr) hs
      hb) hvalid h

theorem statusReport_keeps_inv (f : Flags) (hs : Inv s) : Inv (statusReport f s) := by
  unfold statusReport
  cases resetTrigger s.bridge.prevStatus f <;> exact bridge_keeps_inv (s := s) hs hs.bridgeInv

/-- No bridge event breaks the invariant. -/
theorem bridgeRule_keeps_inv {rule : State → Effect} (hrule : BridgeRule rule) (hs : Inv s)
    (h : bridgeEvent rule s = .next t) : Inv t := by
  obtain rfl | h | ⟨f, rfl⟩ := bridgeEvent_next h
  · exact hs
  · cases hrule with
    | segNew => exact segNew_keeps_inv hs h
    | segCont => exact segCont_keeps_inv hs h
    | cardResp => exact cardAnswer_keeps_inv hs h
    | statusIn f =>
      obtain rfl := Effect.done.inj h
      exact statusReport_keeps_inv f hs
  · exact inv_enterFault.mpr hs

/-! ### Every event, and every step -/

/-- Every instruction keeps the invariant, well formed or not. -/
theorem exec_keeps_inv {i : Instr} (hs : Inv s) (h : exec i s = .next t) : Inv t := by
  cases hi : ofBridge i with
  | false => exact lineSide_keeps_inv (lineSide_exec hi) hs h
  | true =>
    obtain ⟨rule, hrule, hexec⟩ := bridgeRule_exec hi
    rw [hexec] at h
    exact bridgeRule_keeps_inv hrule hs h

/-- The events lined up are no register of the invariant. -/
theorem inv_inq {x : List RawEvent} : Inv { s with inq := x } ↔ Inv s := Iff.rfl

end

/-- Settles O10: a step runs an instruction, or is the fault of a reserved bit; neither breaks the
invariant. -/
theorem stepKeepsTheInvariant : Obligations.StepKeepsTheInvariant := by
  unfold Obligations.StepKeepsTheInvariant
  intro s t hs h
  unfold step at h
  split at h
  next => cases h
  next ev rest _ =>
    have hs' : Inv { s with inq := rest } := inv_inq.mpr hs
    split at h
    next => exact exec_keeps_inv hs' h
    next => exact lineSide_keeps_inv .reserved hs' h
    next => cases h
    next => cases h

end Sys2Proof.Machine

/-! ## The line side and the bridge do not see each other (rules R32, R298, R299) -/

namespace Sys2Proof.Machine

/-! ### The line side, with other bridge registers -/

/-- The slot with other bridge registers. -/
def onBridge (b : Bridge) (s : State) : State := { s with bridge := b }

/-- An effect with its state changed. -/
def Effect.mapDone (f : State → State) : Effect → Effect
  | .done t => .done (f t)
  | .faulted e => .faulted e
  | .noRule => .noRule

/-- An answer with its next state changed. -/
def mapNext (f : State → State) : Answer → Answer
  | .next t => .next (f t)
  | .fault r => .fault r
  | .refused r => .refused r

/-- The operation does the same whatever the bridge registers, and leaves them. -/
def BlindOp (f : State → State) : Prop := ∀ b s, f (onBridge b s) = onBridge b (f s)

/-- The rule does the same whatever the bridge registers, and leaves them. -/
def BlindRule (rule : State → Effect) : Prop :=
  ∀ b s, rule (onBridge b s) = (rule s).mapDone (onBridge b)

/-- The event does the same whatever the bridge registers, and leaves them. -/
def Blind (k : State → Answer) : Prop := ∀ b s, k (onBridge b s) = mapNext (onBridge b) (k s)

/-- A blind event leaves the bridge registers: given them again, it answers the same. -/
theorem Blind.bridge_eq {k : State → Answer} {s t : State} (hk : Blind k) (h : k s = .next t) :
    t.bridge = s.bridge := by
  have hself : k s = mapNext (onBridge s.bridge) (k s) := hk s.bridge s
  rw [h, mapNext] at hself
  have ht : t = onBridge s.bridge t := Host.Outcome.next.inj hself
  rw [ht]
  rfl

/-! #### What is built of blind parts is blind -/

section
variable {f g : State → State} {rule : State → Effect} {k : State → Answer}

theorem BlindOp.comp (hg : BlindOp g) (hf : BlindOp f) : BlindOp fun s => g (f s) :=
  fun b s => (congrArg g (hf b s)).trans (hg b (f s))

theorem BlindOp.done (hf : BlindOp f) : BlindRule fun s => .done (f s) :=
  fun b s => congrArg Effect.done (hf b s)

theorem BlindRule.after (hr : BlindRule rule) (hf : BlindOp f) : BlindRule fun s => rule (f s) :=
  fun b s => (congrArg rule (hf b s)).trans (hr b (f s))

theorem blind_whenLive (hk : Blind k) : Blind (whenLive k) := fun b s => by
  by_cases hf : s.fault = none
  · rw [whenLive_live s k hf, whenLive_live (onBridge b s) k hf, hk b s]
  · rw [whenLive_stuck s k hf, whenLive_stuck (onBridge b s) k hf]
    rfl

theorem blind_next (hf : BlindOp f) : Blind fun s => .next (f s) :=
  fun b s => congrArg Host.Outcome.next (hf b s)

theorem blind_handLine (hr : BlindRule rule) : Blind (handLine rule) := fun b s => by
  simp only [handLine, hr b s]
  cases rule s with
  | done t =>
    show Host.Outcome.next (if t.top = .reset then onBridge b t else rearm (onBridge b t))
      = .next (onBridge b (if t.top = .reset then t else rearm t))
    split_ifs <;> rfl
  | faulted e => rfl
  | noRule => rfl

theorem blind_handExpiry (hr : BlindRule rule) : Blind (handExpiry rule) := fun b s => by
  have hdisarmed := hr b { s with timer := { s.timer with armed := false } }
  simp only [onBridge] at hdisarmed
  simp only [handExpiry, onBridge, hdisarmed]
  cases rule { s with timer := { s.timer with armed := false } } <;> rfl

end

/-! #### The shared operations -/

theorem blindOp_flush (reason : FlushReason) : BlindOp (flush reason) := fun b s => by
  rw [flush_eq, flush_eq]
  rfl

theorem blindOp_obufAppend (x : Byte) : BlindOp (obufAppend x) := fun b s => by
  rw [obufAppend_eq, obufAppend_eq]
  rfl

theorem blindOp_enterReset : BlindOp enterReset := fun b s => by
  rw [enterReset_eq, enterReset_eq]
  rfl

theorem blindOp_enterWaitAtr : BlindOp enterWaitAtr := fun b s => by
  rw [enterWaitAtr_eq, enterWaitAtr_eq]
  rfl

theorem blindOp_atrDone : BlindOp atrDone := fun b s => by
  rw [atrDone_eq, atrDone_eq]
  rfl

/-! #### The byte rules -/

theorem blindRule_atrRule (take : AtrRegs → AtrRegs) (x : Byte) : BlindRule (atrRule take x) :=
  fun b s => by
    by_cases hfull : s.atr.buf.length = s.params.atrMax
    · simp [atrRule, onBridge, hfull, Effect.mapDone]
    · have hdone := blindOp_atrDone b { s with atr := take { s.atr with buf := s.atr.buf ++ [x] } }
      by_cases hst : (take { s.atr with buf := s.atr.buf ++ [x] }).st = .done <;>
        simp [atrRule, onBridge, hfull, hst, Effect.mapDone] at hdone ⊢
      exact hdone

theorem blindRule_ruleWaitAtr (x : Byte) : BlindRule (ruleWaitAtr x) :=
  (blindRule_atrRule takeTs x).after (f := fun s => { s with top := .inAtr }) fun _ _ => rfl

theorem blindRule_ruleInAtr (x : Byte) : BlindRule (ruleInAtr x) := fun b s => by
  by_cases hdone : s.atr.st = .done
  · simp only [ruleInAtr, onBridge, hdone]
    rfl
  · rw [ruleInAtr_eq_atrRule x hdone, ruleInAtr_eq_atrRule (s := onBridge b s) x hdone]
    exact blindRule_atrRule _ x b s

theorem blindRule_rulePtsNext (p : PpsPos) (x : Byte) : BlindRule (rulePtsNext p x) :=
  fun b s => by
    cases h : (phaseBytes s.pps).pts0 <;> simp only [rulePtsNext, onBridge, h] <;> rfl

/-- A report under a condition that is no matter of the bridge. -/
theorem blindOp_raiseUnless (ok : Bool) (e : ErrInfo) :
    BlindOp fun s => if ok = true then s else raise e s :=
  fun b s => (apply_ite (onBridge b) (ok = true) s (raise e s)).symm

theorem blindOp_sendPpsResponse : BlindOp sendPpsResponse :=
  fun b s => (apply_ite (onBridge b) (s.mode = .cardEmu)
    (sendBytes (ppsResponse s.params.ppsResponse (presentBytes s.pps.req)) s) s).symm

theorem blindRule_rulePckReq (x : Byte) : BlindRule (rulePckReq x) := by
  have hturn : ∀ ok, BlindOp fun s => { (if ok = true then s else raise (.pckMismatch .req) s) with
      pps := { (if ok = true then s else raise (.pckMismatch .req) s).pps with
        phase := .resp, pos := .ptss, xor := 0 } } := fun ok b s => by
    cases ok <;> rfl
  intro b s
  exact congrArg Effect.done ((blindOp_sendPpsResponse.comp (hturn ((ppsTake x s.pps).xor == 0))) b
    { s with pps := { ppsTake x s.pps with reqOk := (ppsTake x s.pps).xor == 0 } })

theorem blindOp_ppsCommit (p : Byte) : BlindOp (ppsCommit p) := fun b s => by
  unfold ppsCommit
  simp only [onBridge]
  split
  · split <;> rfl
  · rfl

theorem blindRule_rulePckResp (x : Byte) : BlindRule (rulePckResp x) := by
  have hrecord : BlindOp fun s => emit (.pps (presentBytes s.pps.req) (presentBytes s.pps.resp)) s :=
    fun _ _ => rfl
  have hcommit : ∀ ok : Bool, BlindOp fun s => match s.pps.resp.pts1 with
      | some p => if s.pps.reqOk && ok then ppsCommit p s else s
      | none => s := fun ok b s => by
    cases hp : s.pps.resp.pts1 with
    | none => simp only [onBridge, hp]
    | some p =>
      simp only [onBridge, hp]
      rw [apply_ite (fun t : State => ({ t with bridge := b } : State))]
      exact congrArg (ite _ · _) (blindOp_ppsCommit p b s)
  have hend : BlindOp fun s => ppsClear { s with top := .waitApdu } := fun _ _ => rfl
  intro b s
  exact congrArg Effect.done ((hend.comp ((hcommit ((ppsTake x s.pps).xor == 0)).comp (hrecord.comp
    ((blindOp_flush .ppsDone).comp (blindOp_raiseUnless ((ppsTake x s.pps).xor == 0)
      (.pckMismatch .resp)))))) b { s with pps := ppsTake x s.pps })

/-- The PPS byte rules (rule R224). -/
theorem blindRule_ruleInPts (x : Byte) : BlindRule (ruleInPts x) := fun b s => by
  have hpos : (onBridge b s).pps.pos = s.pps.pos := rfl
  have hphase : (onBridge b s).pps.phase = s.pps.phase := rfl
  unfold ruleInPts rulePps
  rw [hpos, hphase]
  cases s.pps.pos with
  | pts0 => rfl
  | pts1 => exact blindRule_rulePtsNext .pts1 x b s
  | pts2 => exact blindRule_rulePtsNext .pts2 x b s
  | pts3 => rfl
  | pck =>
    cases s.pps.phase with
    | req => exact blindRule_rulePckReq x b s
    | resp => exact blindRule_rulePckResp x b s
  | ptss => cases s.pps.phase <;> rfl

theorem blindRule_ruleP3 (x : Byte) : BlindRule (ruleP3 x) := fun b s => by
  unfold ruleP3
  simp only [onBridge]
  split <;> rfl

/-- A burst is granted by what remains of the line's context (rules R259, R260). -/
theorem blindRule_ack (n : Word → Word) :
    BlindRule fun s => match remaining s.tpdu.ctx with
      | none => .noRule
      | some m => .done (if m = 0 then s else grant (n m) s) := fun b s => by
  simp only [onBridge]
  split
  · rfl
  · split_ifs <;> rfl

theorem blindRule_rulePbAckAll : BlindRule rulePbAckAll := blindRule_ack id

theorem blindRule_rulePbAckOne : BlindRule rulePbAckOne := blindRule_ack fun _ => 1

theorem blindRule_rulePbOther (x : Byte) : BlindRule (rulePbOther x) := fun b s => by
  unfold rulePbOther
  simp only [onBridge, raise_params]
  split <;> rfl

theorem blindRule_ruleProc (x : Byte) : BlindRule (ruleProc x) := fun b s => by
  have hins : (onBridge b s).tpdu = s.tpdu := rfl
  unfold ruleProc
  rw [hins]
  cases classifyPb s.tpdu.ctx.hdr.ins x with
  | null => rfl
  | sw1 => rfl
  | ackAll => exact blindRule_rulePbAckAll b s
  | ackOne => exact blindRule_rulePbAckOne b s
  | other => exact blindRule_rulePbOther x b s

theorem blindRule_ruleData (x : Byte) : BlindRule (ruleData x) := fun b s => by
  unfold ruleData
  simp only [onBridge]
  split <;> rfl

/-- The TPDU byte rules (rule R220). -/
theorem blindRule_ruleTpdu (x : Byte) : BlindRule (ruleTpdu x) := fun b s => by
  have hst : (onBridge b s).tpdu = s.tpdu := rfl
  unfold ruleTpdu
  rw [hst]
  cases s.tpdu.st with
  | idle | hdrIns | hdrP1 | hdrP2 | sw2 => rfl
  | hdrP3 => exact blindRule_ruleP3 x b s
  | proc => exact blindRule_ruleProc x b s
  | data => exact blindRule_ruleData x b s

theorem blindRule_ruleInApdu (x : Byte) : BlindRule (ruleInApdu x) :=
  (blindRule_ruleTpdu x).after (blindOp_obufAppend x)

theorem blindRule_ruleWaitApdu (x : Byte) : BlindRule (ruleWaitApdu x) := fun b s => by
  have hcla : BlindOp fun s => ruleCla x { s with top := .inApdu } := fun _ _ => rfl
  unfold ruleWaitApdu
  split_ifs
  · rfl
  · exact (hcla.comp (blindOp_obufAppend x)).done b s

/-! #### The events of the line side -/

theorem blind_linePhase (x : Byte) : Blind (linePhase x) := fun b s => by
  have htop : (onBridge b s).top = s.top := rfl
  unfold linePhase
  rw [htop]
  cases s.top with
  | reset => rfl
  | waitAtr => exact blind_handLine (blindRule_ruleWaitAtr x) b s
  | inAtr => exact blind_handLine (blindRule_ruleInAtr x) b s
  | waitApdu => exact blind_handLine (blindRule_ruleWaitApdu x) b s
  | inApdu => exact blind_handLine (blindRule_ruleInApdu x) b s
  | inPts => exact blind_handLine (blindRule_ruleInPts x) b s

theorem blind_lineEvent (dir pe oe fe : Bool) (x : Byte) : Blind (lineEvent dir pe oe fe x) :=
  blind_whenLive fun b s => by
    have htop : (onBridge b s).top = s.top := rfl
    rw [htop]
    split_ifs
    · rfl
    · rfl
    · exact blind_linePhase x b s

theorem blindRule_expiryInAtr : BlindRule expiryInAtr := fun b s => by
  have hparams : (onBridge b s).params = s.params := rfl
  unfold expiryInAtr
  rw [hparams]
  cases s.params.wtInAtr with
  | ignore => rfl
  | abortToWaitAtr => exact blindOp_enterWaitAtr.done b s

theorem blindRule_expiryInApdu : BlindRule expiryInApdu := by
  have hend : BlindOp fun s => tpduClear { s with top := .waitApdu } := fun _ _ => rfl
  exact (hend.comp (blindOp_flush .wtExpiry)).done

theorem blindRule_expiryInPts : BlindRule expiryInPts := by
  have hend : BlindOp fun s => ppsClear { s with top := .waitApdu } := fun _ _ => rfl
  exact ((blindOp_flush .wtExpiry).comp hend).done

theorem blind_expiryPhase : Blind expiryPhase := fun b s => by
  have htop : (onBridge b s).top = s.top := rfl
  unfold expiryPhase
  rw [htop]
  cases s.top with
  | reset => rfl
  | waitAtr => exact blind_handExpiry (fun _ _ => rfl) b s
  | inAtr => exact blind_handExpiry blindRule_expiryInAtr b s
  | waitApdu => exact blind_handExpiry (blindOp_flush .wtExpiry).done b s
  | inApdu => exact blind_handExpiry blindRule_expiryInApdu b s
  | inPts => exact blind_handExpiry blindRule_expiryInPts b s

theorem blind_expiryEvent : Blind expiryEvent :=
  blind_whenLive fun b s => by
    have htimer : (onBridge b s).timer = s.timer := rfl
    rw [htimer]
    split_ifs
    · exact blind_expiryPhase b s
    · rfl

theorem blindOp_fallToReset : BlindOp fallToReset := fun b s => by
  have htop : (onBridge b s).top = s.top := rfl
  unfold fallToReset
  rw [htop]
  split_ifs
  · rfl
  · exact blindOp_enterReset b s

theorem blindOp_releaseReset (wasReset : Bool) : BlindOp (releaseReset wasReset) := fun b s => by
  have htop : (onBridge b s).top = s.top := rfl
  unfold releaseReset
  rw [htop]
  split_ifs
  · exact blindOp_enterWaitAtr b s
  · rfl

theorem blind_signalEvent (clk vcc rst : Bool) : Blind (signalEvent clk vcc rst) := by
  have hlevels : BlindOp (recordLevels rst vcc clk) := fun _ _ => rfl
  refine blind_whenLive fun b s => congrArg Host.Outcome.next ?_
  show (if rst = true then fallToReset (recordLevels rst vcc clk (onBridge b s))
    else if vcc = false then fallToReset (recordLevels rst vcc clk (onBridge b s))
    else releaseReset (resetActive s.status) (recordLevels rst vcc clk (onBridge b s))) = _
  split_ifs
  · exact blindOp_fallToReset.comp hlevels b s
  · exact blindOp_fallToReset.comp hlevels b s
  · exact (blindOp_releaseReset _).comp hlevels b s

theorem blindOp_setAtr (x : List Byte) : BlindOp (setAtr x) := fun b s => by
  have hparams : (onBridge b s).params = s.params := rfl
  unfold setAtr
  rw [hparams]
  split_ifs
  · rfl
  · cases atrParse s.params x <;> rfl

/-- The line side and the query ports are blind. -/
theorem LineSide.blind {k : State → Answer} (hk : LineSide k) : Blind k := by
  cases hk with
  | lineByte dir pe oe fe x => exact blind_lineEvent dir pe oe fe x
  | wtExpiry => exact blind_expiryEvent
  | signal clk vcc rst => exact blind_signalEvent clk vcc rst
  | cardInsert ins => exact blind_whenLive fun _ _ => rfl
  | atrSet x => exact blind_whenLive (blind_next (blindOp_setAtr x))
  | query r => exact blind_whenLive fun _ _ => rfl
  | reserved => exact blind_whenLive fun _ _ => rfl

/-- Settles O57: every event but the bridge's is blind. -/
theorem lineSideIgnoresTheBridge : Obligations.LineSideIgnoresTheBridge := by
  unfold Obligations.LineSideIgnoresTheBridge
  intro i s t b hi h
  have hblind := (lineSide_exec hi).blind
  refine ⟨hblind.bridge_eq h, ?_⟩
  have hb := hblind b s
  rw [h] at hb
  exact hb

/-! ### The bridge, on another line side -/

/-- The slot after a bridge event: its registers, records, and an error if one is reported. -/
def bridgeWrite (b : Bridge) (out : List Record) (e : Option ErrInfo) (u : State) : State :=
  { u with
    bridge := b, outq := u.outq ++ out
    lastErr := match e with
      | none => u.lastErr
      | some x => some x }

/-- The rule reads and writes the bridge registers only: what it does on `s` it does on every slot with
the same bridge registers. It never enters a model fault. -/
def DependsOnBridge (rule : State → Effect) : Prop :=
  ∀ s, rule s = .noRule ∨ ∃ b out e, ∀ u : State, u.bridge = s.bridge →
    rule u = .done (bridgeWrite b out e u)

section
variable {rule rule' : State → Effect}

theorem dependsOnBridge_raise (e : ErrInfo) : DependsOnBridge fun s => .done (raise e s) :=
  fun s => .inr ⟨s.bridge, [.error e], some e, fun u hu => by rw [← hu]; rfl⟩

theorem dependsOnBridge_fatal (e : BridgeErr) :
    DependsOnBridge fun s => .done (bridgeFatal e s) :=
  fun s => .inr ⟨{ s.bridge with fatal := true }, [.error (.fatalBridge e)],
    some (.fatalBridge e), fun u hu => by rw [← hu]; rfl⟩

/-- A rule after a write of the bridge registers that reads no others. -/
theorem DependsOnBridge.after (h : DependsOnBridge rule) (f : Bridge → Bridge) :
    DependsOnBridge fun s => rule { s with bridge := f s.bridge } := fun s => by
  obtain hnone | ⟨b, out, e, hu⟩ := h { s with bridge := f s.bridge }
  · exact .inl hnone
  · exact .inr ⟨b, out, e, fun u heq => hu { u with bridge := f u.bridge } (congrArg f heq)⟩

/-- A choice by the bridge registers. -/
theorem DependsOnBridge.ite {c : Bridge → Prop} [DecidablePred c] (h : DependsOnBridge rule)
    (h' : DependsOnBridge rule') :
    DependsOnBridge fun s => if c s.bridge then rule s else rule' s := fun s => by
  by_cases hc : c s.bridge
  · obtain hnone | ⟨b, out, e, hu⟩ := h s
    · exact .inl ((if_pos hc).trans hnone)
    · exact .inr ⟨b, out, e, fun u heq => (if_pos (by rwa [heq])).trans (hu u heq)⟩
  · obtain hnone | ⟨b, out, e, hu⟩ := h' s
    · exact .inl ((if_neg hc).trans hnone)
    · exact .inr ⟨b, out, e, fun u heq => (if_neg (by rwa [heq])).trans (hu u heq)⟩

end

/-- The dispatch (rule R295), outcome by outcome. -/
theorem dependsOnBridge_dispatch : DependsOnBridge bridgeDispatch := fun s => by
  obtain ⟨hlt, -⟩ | ⟨hall, hfwd, ⟨-, h⟩ | ⟨x, hx, -⟩⟩
    | ⟨hall, hfwd, ⟨s1, s2, hs1, hs2, -⟩ | ⟨hnone, -⟩⟩ := bridgeDispatch_cases s _ rfl
  · refine .inr ⟨s.bridge, [.rxMore (s.bridge.ctx.lc.tot - s.bridge.ctx.lc.cur)], none,
      fun u hu => ?_⟩
    rw [← hu] at hlt ⊢
    simp only [bridgeDispatch, if_pos hlt]
    rfl
  · exact .inl h
  · refine .inr ⟨{ s.bridge with forwarded := true }, [.txToCard x], none, fun u hu => ?_⟩
    rw [← hu] at hall hfwd hx ⊢
    simp only [bridgeDispatch, if_neg hall, if_pos hfwd, hx]
    rfl
  · refine .inr ⟨s.bridge, [.complete s1 s2 s.bridge.ctx.de], none, fun u hu => ?_⟩
    rw [← hu] at hall hfwd hs1 hs2 ⊢
    simp only [bridgeDispatch, if_neg hall, hfwd, hs1, hs2]
    rfl
  · refine .inr ⟨{ s.bridge with fatal := true }, [.error (.fatalBridge .noOutcome)],
      some (.fatalBridge .noOutcome), fun u hu => ?_⟩
    rw [← hu] at hall hfwd hnone ⊢
    have hfatal : bridgeDispatch u = .done (bridgeFatal .noOutcome u) := by
      obtain ⟨hlt, -⟩ | ⟨-, hopen, -⟩ | ⟨-, -, ⟨s1, s2, hs1, hs2, -⟩ | ⟨-, h⟩⟩ :=
        bridgeDispatch_cases u _ rfl
      · exact absurd hlt hall
      · rw [hopen] at hfwd; cases hfwd
      · rw [hs1, hs2] at hnone; simp at hnone
      · exact h
    exact hfatal

theorem dependsOnBridge_segNew (seg : List Byte) : DependsOnBridge (segNew seg) := by
  unfold segNew
  cases classifyCase seg with
  | malformed e =>
    cases e with
    | tooShort => exact dependsOnBridge_raise _
    | lengthMismatch => exact dependsOnBridge_fatal _
    | zeroLc => exact dependsOnBridge_fatal _
  | case r =>
    exact dependsOnBridge_dispatch.after fun b =>
      { b with ctx := newCtx seg r, valid := true, forwarded := false, ext := r.ext }

theorem dependsOnBridge_segCont (seg : List Byte) : DependsOnBridge (segCont seg) :=
  (dependsOnBridge_fatal .noDataOwed).ite (c := fun b => contOwed b = false)
    (dependsOnBridge_dispatch.after fun b => { b with ctx := contCtx seg b.ctx })

theorem dependsOnBridge_cardAnswer (r : List Byte) : DependsOnBridge (cardAnswer r) :=
  (dependsOnBridge_raise (.transport .tooShort)).ite (c := fun _ => r.length < 2)
    ((dependsOnBridge_raise (.transport .unexpectedResponse)).ite
      (c := fun b => (b.valid && b.forwarded) = false ∨ b.ctx.sw0 ≠ none)
      (dependsOnBridge_dispatch.after fun b => { b with ctx := respCtx r b.ctx }))

/-- A status report as one write of the bridge (rule R298). -/
theorem statusReport_eq (f : Flags) (s : State) :
    statusReport f s = bridgeWrite { s.bridge with prevStatus := f }
      ((resetTrigger s.bridge.prevStatus f).map Record.cardReset).toList none s := by
  unfold statusReport
  cases resetTrigger s.bridge.prevStatus f with
  | none => simp only [bridgeWrite, Option.map_none, Option.toList_none, List.append_nil]
  | some k => rfl

theorem dependsOnBridge_statusReport (f : Flags) :
    DependsOnBridge fun s => .done (statusReport f s) :=
  fun s => .inr ⟨{ s.bridge with prevStatus := f },
    ((resetTrigger s.bridge.prevStatus f).map Record.cardReset).toList, none,
    fun u hu => by rw [← hu]; exact congrArg Effect.done (statusReport_eq f u)⟩

theorem BridgeRule.dependsOnBridge {rule : State → Effect} (h : BridgeRule rule) :
    DependsOnBridge rule := by
  cases h with
  | segNew seg => exact dependsOnBridge_segNew seg
  | segCont seg => exact dependsOnBridge_segCont seg
  | cardResp r => exact dependsOnBridge_cardAnswer r
  | statusIn f => exact dependsOnBridge_statusReport f

/-- A bridge event that answers does the same to every slot with the same bridge and fault registers. -/
theorem bridgeEvent_dependsOnBridge {rule : State → Effect} {s t : State}
    (hrule : DependsOnBridge rule) (h : bridgeEvent rule s = .next t) :
    ∃ b out e, ∀ u : State, u.bridge = s.bridge → u.fault = s.fault →
      bridgeEvent rule u = .next (bridgeWrite b out e u) := by
  by_cases hstop : s.fault ≠ none ∨ s.bridge.fatal = true
  · refine ⟨s.bridge, [], none, fun u hb hf => ?_⟩
    rw [← hb, ← hf] at hstop
    rw [bridgeEvent, whenBridgeLive_stopped u _ hstop, ← hb]
    simp only [bridgeWrite, List.append_nil]
  · obtain ⟨hfault, hfatal⟩ : s.fault = none ∧ s.bridge.fatal = false := by simpa using hstop
    obtain hnone | ⟨b, out, e, hdone⟩ := hrule s
    · rw [bridgeEvent, whenBridgeLive_live s _ hfault hfatal, hnone] at h
      cases h
    · refine ⟨b, out, e, fun u hb hf => ?_⟩
      rw [bridgeEvent, whenBridgeLive_live u _ (hf.trans hfault) (by rw [hb, hfatal]), hdone u hb]
      rfl

/-- Settles O58: each bridge rule depends on the bridge registers only. -/
theorem bridgeIgnoresTheLineSide : Obligations.BridgeIgnoresTheLineSide := by
  unfold Obligations.BridgeIgnoresTheLineSide
  intro i s t hi h
  obtain ⟨rule, hrule, hexec⟩ := bridgeRule_exec hi
  rw [hexec] at h ⊢
  exact bridgeEvent_dependsOnBridge hrule.dependsOnBridge h

end Sys2Proof.Machine

/-! ## A step runs the event it takes (rules R61, R62, R91) -/

namespace Sys2Proof.Machine

section
variable {s : State} {ev : RawEvent} {rest : List RawEvent}

/-! ### One equation per answer of the decoder -/

theorem step_of_decode_ok {i : Instr} (hinq : s.inq = ev :: rest) (hdec : decode ev = .ok i) :
    step s = exec i { s with inq := rest } := by
  simp only [step, hinq, hdec]

theorem step_of_reservedBits (hinq : s.inq = ev :: rest) (hdec : decode ev = .error .reservedBits) :
    step s = illegalEvent { s with inq := rest } := by
  simp only [step, hinq, hdec]

theorem step_of_payloadShort (hinq : s.inq = ev :: rest) (hdec : decode ev = .error .payloadShort) :
    step s = .refused .payloadShort := by
  simp only [step, hinq, hdec]

theorem step_of_payloadLong (hinq : s.inq = ev :: rest) (hdec : decode ev = .error .payloadLong) :
    step s = .refused .payloadLong := by
  simp only [step, hinq, hdec]

/-- A live slot takes an illegal event as its model fault, and nothing else changes (rule R336). -/
theorem illegalEvent_live (hfault : s.fault = none) :
    illegalEvent s = .next { s with fault := some .illegalEvent } :=
  whenLive_live s _ hfault

/-! ### The event placed by `withFetchWord` (log 1) -/

/-- The bits of the opcode table spell an instruction through the event they stand for. -/
theorem decodeTableWord_eq_some_iff {nbits w : Nat} {i : Instr} :
    decodeTableWord nbits w = some i ↔ decode (tableEvent nbits w) = .ok i := by
  unfold decodeTableWord
  cases decode (tableEvent nbits w) with
  | ok j => simp only [Option.some.injEq, Except.ok.injEq]
  | error e => simp only [reduceCtorEq]

/-- Taking the placed event off the sequence gives back the state as it was. -/
theorem step_withFetchWord {u : State} {nbits w : Nat} {i : Instr}
    (h : decodeTableWord nbits w = some i) : step (u.withFetchWord nbits w) = exec i u :=
  step_of_decode_ok (s := u.withFetchWord nbits w) (rest := u.inq) rfl
    (decodeTableWord_eq_some_iff.mp h)

end

/-- Settles O5: the step's equation for each answer of the decoder, and for a placed event. -/
theorem stepRunsTheDecodedEvent : Obligations.StepRunsTheDecodedEvent := by
  unfold Obligations.StepRunsTheDecodedEvent
  intro s ev rest hinq
  refine ⟨?decoded, ?reserved, ?short, ?long, ?placed⟩
  case decoded => exact fun i hdec => step_of_decode_ok hinq hdec
  case reserved =>
    intro hdec hfault
    have hlive : ({ s with inq := rest } : State).fault = none := hfault
    rw [step_of_reservedBits hinq hdec, illegalEvent_live hlive]
  case short => exact step_of_payloadShort hinq
  case long => exact step_of_payloadLong hinq
  case placed => exact fun u nbits w i h => step_withFetchWord h

end Sys2Proof.Machine

/-! ## Reserved words and the query ports (rules R89 to R91) -/

namespace Sys2Proof.Machine

/-- Settles O13: every reserved row is the illegal event, whatever its operands. -/
theorem reservedWordsAreIllegalEvents : Obligations.ReservedWordsAreIllegalEvents := by
  unfold Obligations.ReservedWordsAreIllegalEvents
  intro s _ _ _ hfault
  have hillegal := illegalEvent_live hfault
  exact ⟨hillegal, hillegal, hillegal, hillegal, hillegal, hillegal, hillegal, hillegal⟩

/-- A live slot puts the result of a query on the port and changes nothing else. -/
theorem answerQuery_live {s : State} (hfault : s.fault = none) (r : State → QueryResult) :
    answerQuery r s = .next { s with queryPort := some (r s) } :=
  whenLive_live s _ hfault

/-! ### The Fi and Di tables (rules R120 to R123) -/

/-- The 4-bit indices reach every place of a table of sixteen entries. -/
theorem contains_iff_getD_nibble {α : Type} [BEq α] [LawfulBEq α] {l : List α} (hl : l.length = 16)
    (d x : α) : l.contains x = true ↔ ∃ k : Nibble, l.getD k.toNat d = x := by
  rw [List.contains_iff_mem, List.mem_iff_getElem]
  constructor
  · rintro ⟨k, hk, rfl⟩
    have hk16 : (BitVec.ofNat 4 k).toNat = k := Nat.mod_eq_of_lt (by omega)
    exact ⟨BitVec.ofNat 4 k, by rw [hk16, List.getD_eq_getElem _ _ hk]⟩
  · rintro ⟨k, rfl⟩
    have hk : k.toNat < l.length := by omega
    exact ⟨k.toNat, hk, (List.getD_eq_getElem _ _ hk).symm⟩

theorem validF_eq_decide (f : Half) :
    validF f = decide (f ≠ 0 ∧ ∃ k : Nibble, fiOf k = f) := by
  have htable := contains_iff_getD_nibble (l := fiTable) rfl 0 f
  rw [Bool.eq_iff_iff, decide_eq_true_iff, validF, Bool.and_eq_true, bne_iff_ne, htable]
  rfl

theorem validD_eq_decide (t : DiTail) (d : Byte) :
    validD t d = decide (d ≠ 0 ∧ ∃ k : Nibble, diOf t k = d) := by
  have htable := contains_iff_getD_nibble (l := diTable t) rfl 0 d
  rw [Bool.eq_iff_iff, decide_eq_true_iff, validD, Bool.and_eq_true, bne_iff_ne, htable]
  rfl

/-! ### The errors of `calculate_wt`, in the order of rule R124 -/

section
variable {t : DiTail} {wi di d : Byte} {fi f : Half}

theorem calcWt_invalidWi (hwi : wi = 0) : calcWt t wi fi di f d = .err .invalidWi := by
  rw [calcWt, if_pos hwi]

theorem calcWt_invalidF (hwi : wi ≠ 0) (hf : validF fi = false ∨ validF f = false) :
    calcWt t wi fi di f d = .err .invalidF := by
  have hbad : (!validF fi || !validF f) = true := by simpa using hf
  rw [calcWt, if_neg hwi, if_pos hbad]

theorem calcWt_of_validF (hwi : wi ≠ 0) (hfi : validF fi = true) (hf : validF f = true) :
    calcWt t wi fi di f d =
      if !validD t di || !validD t d then .err .invalidD
      else if fi.toNat < f.toNat ∨ di.toNat < d.toNat then .err .protocolViolation
      else .ok (BitVec.ofNat 32
        (((wi.toNat * 960) * (fi.toNat / f.toNat)) * (di.toNat / d.toNat))) := by
  have hgood : ¬ (!validF fi || !validF f) = true := by simp [hfi, hf]
  rw [calcWt, if_neg hwi, if_neg hgood]

theorem calcWt_invalidD (hwi : wi ≠ 0) (hfi : validF fi = true) (hf : validF f = true)
    (hd : validD t di = false ∨ validD t d = false) :
    calcWt t wi fi di f d = .err .invalidD := by
  have hbad : (!validD t di || !validD t d) = true := by simpa using hd
  rw [calcWt_of_validF hwi hfi hf, if_pos hbad]

theorem calcWt_protocolViolation (hwi : wi ≠ 0) (hfi : validF fi = true) (hf : validF f = true)
    (hdi : validD t di = true) (hd : validD t d = true)
    (hexcess : fi.toNat < f.toNat ∨ di.toNat < d.toNat) :
    calcWt t wi fi di f d = .err .protocolViolation := by
  have hgood : ¬ (!validD t di || !validD t d) = true := by simp [hdi, hd]
  rw [calcWt_of_validF hwi hfi hf, if_neg hgood, if_pos hexcess]

end

/-- Settles O33: the tables place by place, and each query by the equation of the port. -/
theorem timingQueriesAnswer : Obligations.TimingQueriesAnswer := by
  unfold Obligations.TimingQueriesAnswer
  intro s hfault
  refine ⟨⟨_, rfl, by decide, rfl⟩, ?validF, ?validD, ?ratio, ?calcWt⟩
  case validF =>
    intro f
    rw [← validF_eq_decide]
    exact answerQuery_live hfault fun _ => .bool (validF f)
  case validD =>
    intro d
    rw [← validD_eq_decide]
    exact answerQuery_live hfault fun s => .bool (validD s.params.diTail d)
  case ratio =>
    exact fun x => answerQuery_live hfault fun s => .timing (fidiToRatio s.params.diTail x)
  case calcWt =>
    intro wi fi f di d
    have hport := answerQuery_live hfault fun s => .timing (calcWt s.params.diTail wi fi di f d)
    exact ⟨_, hport, rfl, calcWt_invalidWi, calcWt_invalidF,
      fun hwi hfi hf => ⟨calcWt_invalidD hwi hfi hf, calcWt_protocolViolation hwi hfi hf⟩⟩

/-! ### The procedure-byte, parse and build queries (rules R154, R156, R256) -/

section
variable {ins b : Byte}

theorem classifyPb_null : classifyPb ins 0x60#8 = .null := by
  rw [classifyPb, if_pos rfl]

theorem ackByte_iff : ackByte b ↔ ¬ (hiNibble b = 6#4 ∨ hiNibble b = 9#4) := not_or.symm

/-- The class of a procedure byte, class by class; the clauses exclude each other (rules R98, R256). -/
theorem classifyPb_iff (ins b : Byte) :
    (classifyPb ins b = .null ↔ b = 0x60#8)
    ∧ (classifyPb ins b = .sw1 ↔ b ≠ 0x60#8 ∧ (hiNibble b = 6#4 ∨ hiNibble b = 9#4))
    ∧ (classifyPb ins b = .ackAll ↔ ackByte b ∧ b = ins)
    ∧ (classifyPb ins b = .ackOne ↔ ackByte b ∧ b = ~~~ ins)
    ∧ (classifyPb ins b = .other ↔ ackByte b ∧ b ≠ ins ∧ b ≠ ~~~ ins) := by
  by_cases hnull : b = 0x60#8
  · subst hnull
    have hnot : ¬ ackByte 0x60#8 := by decide
    simp [classifyPb_null, hnot]
  by_cases hsw : hiNibble b = 6#4 ∨ hiNibble b = 9#4
  · have hnot : ¬ ackByte b := fun hack => ackByte_iff.mp hack hsw
    simp [classifyPb_sw1 hnull hsw, hnull, hsw, hnot]
  have hack : ackByte b := ackByte_iff.mpr hsw
  rw [classifyPb_ack hack, ← byte_not_eq_xor]
  by_cases hins : b = ins
  · have hcompl : b ≠ ~~~ ins := by rw [hins]; exact (byte_not_ne_self ins).symm
    simp [hnull, hsw, eq_true hack, eq_true hins, hcompl]
  · by_cases hcompl : b = ~~~ ins
    · simp [hnull, hsw, eq_true hack, hins, eq_true hcompl]
    · simp [hnull, hsw, eq_true hack, hins, hcompl]

end

/-- Settles O50: each query by the equation of the port. -/
theorem byteQueriesAnswer : Obligations.ByteQueriesAnswer := by
  unfold Obligations.ByteQueriesAnswer
  intro s hfault
  have hbuild (x : List Byte) : exec (.funcAtrBuild x) s
      = .next { s with queryPort := some (.build (atrBuildTagged s.params x)) } :=
    answerQuery_live hfault fun s => .build (atrBuildTagged s.params x)
  refine ⟨?classifyPb, ?parse, ?untagged, ?tagged⟩
  case classifyPb =>
    intro ins b
    have hport := answerQuery_live hfault fun _ => .pbClass (classifyPb ins b)
    exact ⟨_, hport, classifyPb_iff ins b⟩
  case parse => exact fun x => answerQuery_live hfault fun s => .parse (atrParse s.params x)
  case untagged =>
    intro x hx
    rw [hbuild, atrBuildTagged, hx]
  case tagged =>
    intro x a hx
    rw [hbuild, atrBuildTagged, hx]
    exact ⟨fun hwf => by simp only [atrBuild, if_pos hwf, atrBytes],
      fun hill => by simp only [atrBuild, hill, Bool.false_eq_true, if_false]⟩

end Sys2Proof.Machine

/-! ## Words and instructions: the decoder and the encoder invert each other (rules R80 to R92) -/

namespace Sys2Proof.Machine

/-! ### The fields of a word, as numbers -/

theorem field_toNat {width : Nat} (w : BitVec width) (start len : Nat) :
    (w.extractLsb' start len).toNat = w.toNat / 2 ^ start % 2 ^ len := by
  rw [BitVec.extractLsb'_toNat, Nat.shiftRight_eq_div_pow]

theorem bit_toNat (w : Word) (k : Nat) : (w.getLsbD k).toNat = w.toNat / 2 ^ k % 2 :=
  Nat.toNat_testBit w.toNat k

theorem field_eq_of_toNat {width start len : Nat} {w : BitVec width} {v : BitVec len}
    (h : w.toNat / 2 ^ start % 2 ^ len = v.toNat) : w.extractLsb' start len = v :=
  BitVec.eq_of_toNat_eq (by rw [field_toNat, h])

theorem bit_eq_of_toNat {w : Word} {k : Nat} {c : Bool} (h : w.toNat / 2 ^ k % 2 = c.toNat) :
    w.getLsbD k = c := by
  rw [← bit_toNat] at h
  rw [← Bool.ofNat_toNat (w.getLsbD k), h, Bool.ofNat_toNat]

theorem field_beq_zero_iff {w : Word} {start len : Nat} :
    (w.extractLsb' start len == 0#len) = true ↔ w.toNat / 2 ^ start % 2 ^ len = 0 := by
  rw [beq_iff_eq, BitVec.toNat_eq, field_toNat, BitVec.toNat_ofNat, Nat.zero_mod]

/-! ### Two bytes as one 16-bit operand (rule R90) -/

theorem bigEndian_toNat (hi lo : Byte) : (bigEndian hi lo).toNat = hi.toNat * 256 + lo.toNat := by
  rw [bigEndian, BitVec.toNat_ofNat]
  omega

theorem bigEndian_bytes (v : Half) : bigEndian (v.extractLsb' 8 8) (v.extractLsb' 0 8) = v := by
  apply BitVec.eq_of_toNat_eq
  rw [bigEndian_toNat, field_toNat, field_toNat]
  omega

theorem bigEndian_hi (hi lo : Byte) : (bigEndian hi lo).extractLsb' 8 8 = hi :=
  field_eq_of_toNat (by rw [bigEndian_toNat]; omega)

theorem bigEndian_lo (hi lo : Byte) : (bigEndian hi lo).extractLsb' 0 8 = lo :=
  field_eq_of_toNat (by rw [bigEndian_toNat]; omega)

/-! ### The event word (rule R80) -/

theorem eventWord_toNat {kind rest : Nat} (hkind : kind < 16) (hrest : rest < 2 ^ 28) :
    (eventWord kind rest).toNat = kind * 2 ^ 28 + rest := by
  rw [eventWord, BitVec.toNat_ofNat]
  omega

/-- The word an event is written with is its KIND above its lower 28 bits. -/
theorem spelling_eq {ev : RawEvent} {kind rest : Nat} {x : List Byte}
    (hk : (ev.word.extractLsb' 28 4).toNat = kind) (hrest : rest = ev.word.toNat % 2 ^ 28)
    (hx : x = ev.payload) : (⟨eventWord kind rest, x⟩ : RawEvent) = ev := by
  have hword : eventWord kind rest = ev.word := by
    rw [field_toNat] at hk
    have hlt := ev.word.isLt
    apply BitVec.eq_of_toNat_eq
    rw [eventWord_toNat (by omega) (by omega)]
    omega
  rw [hword, hx]

/-! ### The checks of the decoder (rules R91, R92) -/

section
variable {ev : RawEvent} {i j : Instr}

theorem withPayload_ok (hlen : ev.payload.length = payloadLen ev.word) :
    withPayload ev i = .ok i := by
  simp [withPayload, hlen]

theorem withPayload_eq_ok_iff :
    withPayload ev i = .ok j ↔ ev.payload.length = payloadLen ev.word ∧ i = j := by
  unfold withPayload
  split_ifs with hshort hlong
  · simp; omega
  · simp; omega
  · have hlen : ev.payload.length = payloadLen ev.word := by omega
    simp [hlen]

theorem withPayload_ne_reservedBits : withPayload ev i ≠ .error .reservedBits := by
  unfold withPayload
  split_ifs <;> simp

/-- A word whose reserved field is 0 is accepted with a payload of its length. -/
theorem ifZero_field_ok {w : Word} {x : List Byte} {start len : Nat}
    (hzero : w.toNat / 2 ^ start % 2 ^ len = 0) (hlen : x.length = payloadLen w) :
    ifZero (w.extractLsb' start len == 0#len) ⟨w, x⟩ i = .ok i := by
  rw [ifZero, if_pos (field_beq_zero_iff.mpr hzero), withPayload_ok hlen]

theorem ifZero_eq_ok_iff {reserved : Bool} :
    ifZero reserved ev i = .ok j
      ↔ reserved = true ∧ ev.payload.length = payloadLen ev.word ∧ i = j := by
  cases reserved <;> simp [ifZero, withPayload_eq_ok_iff]

theorem ifZero_eq_reservedBits_iff {reserved : Bool} :
    ifZero reserved ev i = .error .reservedBits ↔ reserved = false := by
  cases reserved <;> simp [ifZero, withPayload_ne_reservedBits]

end

/-! ### Reserved bits (rules R80, R89, R91) -/

/-- The mask of a field clears a word exactly if the field is 0. -/
theorem and_fieldMask_eq_zero_iff (w : Word) {start len : Nat} (hfit : start + len ≤ 32) :
    w &&& (BitVec.allOnes len).setWidth 32 <<< start = 0 ↔ w.extractLsb' start len = 0 := by
  constructor
  · intro h
    ext k hk
    have hbit := congrArg (fun x : Word => x.getLsbD (start + k)) h
    have hlt : start + k < 32 := by omega
    simpa [hk, hlt] using hbit
  · intro h
    ext k hk
    by_cases hin : start ≤ k ∧ k - start < len
    · obtain ⟨hlo, hhi⟩ := hin
      have hsum : start + (k - start) = k := by omega
      have hbit : w[k] = false := by
        simpa [hhi, hsum, hk] using congrArg (fun x : BitVec len => x.getLsbD (k - start)) h
      simp [hbit]
    · have hout : ¬ start ≤ k ∨ ¬ k - start < len := by omega
      rcases hout with hout | hout <;> simp [hout]

section
variable {ev : RawEvent} {i : Instr}

/-- A layout with one reserved field rejects a word exactly if the mask of that field meets it. -/
theorem ifZero_rejects_iff {m : Word} {start len : Nat}
    (hm : m = (BitVec.allOnes len).setWidth 32 <<< start) (hfit : start + len ≤ 32) :
    ifZero (ev.word.extractLsb' start len == 0#len) ev i = .error .reservedBits
      ↔ ev.word &&& m ≠ 0 := by
  rw [ifZero_eq_reservedBits_iff, beq_eq_false_iff_ne, hm, Ne, Ne, and_fieldMask_eq_zero_iff _ hfit]
  rfl

/-- A layout without reserved bits has the empty mask. -/
theorem withPayload_rejects_iff :
    withPayload ev i = .error .reservedBits ↔ ev.word &&& 0 ≠ 0 := by
  simp [withPayload_ne_reservedBits]

theorem decodeFunc_rejects_iff (hk : (ev.word.extractLsb' 28 4).toNat = 10) :
    decodeFunc ev = .error .reservedBits ↔ ev.word &&& reservedMask ev.word ≠ 0 := by
  have hlt : (ev.word.extractLsb' 24 4).toNat < 16 := BitVec.isLt _
  match hfn : (ev.word.extractLsb' 24 4).toNat, hlt with
  | 0, _ | 1, _ | 2, _ | 3, _ | 4, _ | 5, _ | 6, _ | 7, _ =>
    simp only [decodeFunc, reservedMask, hk, hfn]
    exact ifZero_rejects_iff (by decide) (by decide)
  | 8, _ | 9, _ | 10, _ | 11, _ | 12, _ | 13, _ | 14, _ | 15, _ =>
    simp only [decodeFunc, reservedMask, hk, hfn]
    exact withPayload_rejects_iff
  | n + 16, hlt => omega

end

/-- Settles O3: KIND by KIND, the decoder looks at the one field the mask covers. -/
theorem reservedBitsAreRejected : Obligations.ReservedBitsAreRejected := by
  unfold Obligations.ReservedBitsAreRejected
  intro ev
  have hlt : (ev.word.extractLsb' 28 4).toNat < 16 := BitVec.isLt _
  match hk : (ev.word.extractLsb' 28 4).toNat, hlt with
  | 10, _ =>
    simp only [decode, hk]
    exact decodeFunc_rejects_iff hk
  | 1, _ | 2, _ | 3, _ | 4, _ | 5, _ | 6, _ | 7, _ | 8, _ =>
    simp only [decode, reservedMask, hk]
    exact ifZero_rejects_iff (by decide) (by decide)
  | 0, _ | 9, _ | 11, _ | 12, _ | 13, _ | 14, _ | 15, _ =>
    simp only [decode, reservedMask, hk]
    exact withPayload_rejects_iff
  | n + 16, hlt => omega

/-! ### An accepted word is spelled by its row (rules R80, R91, R92) -/

/-- `ev` is the one spelling of the row `i`, a well-formed row that is its own event. -/
def OneSpelling (ev : RawEvent) (i : Instr) : Prop := i.wf ∧ i.event = i ∧ encode i = ev

section
variable {ev : RawEvent} {i j : Instr}

/-- A row with a reserved field: the field is 0 and the payload has its length. -/
theorem OneSpelling.of_ifZero {start len : Nat}
    (h : ifZero (ev.word.extractLsb' start len == 0#len) ev i = .ok j)
    (hi : ev.word.toNat / 2 ^ start % 2 ^ len = 0 → ev.payload.length = payloadLen ev.word →
      OneSpelling ev i) : OneSpelling ev j := by
  obtain ⟨hzero, hlen, rfl⟩ := ifZero_eq_ok_iff.mp h
  exact hi (field_beq_zero_iff.mp hzero) hlen

theorem OneSpelling.of_withPayload (h : withPayload ev i = .ok j)
    (hi : ev.payload.length = payloadLen ev.word → OneSpelling ev i) : OneSpelling ev j := by
  obtain ⟨hlen, rfl⟩ := withPayload_eq_ok_iff.mp h
  exact hi hlen

/-- A row without payload is spelled if its word is. -/
theorem OneSpelling.of_word {kind rest : Nat} (hk : (ev.word.extractLsb' 28 4).toNat = kind)
    (hi : i.wf ∧ i.event = i) (henc : encode i = ⟨eventWord kind rest, []⟩)
    (hlen : ev.payload.length = 0) (hrest : rest = ev.word.toNat % 2 ^ 28) : OneSpelling ev i :=
  ⟨hi.1, hi.2, by rw [henc, spelling_eq hk hrest (List.eq_nil_of_length_eq_zero hlen).symm]⟩

/-- A row with its payload's length in the low bits of the word. -/
theorem OneSpelling.of_counted {kind head : Nat} (hk : (ev.word.extractLsb' 28 4).toNat = kind)
    (hi : i.wf ∧ i.event = i) (henc : encode i = countedWord kind head ev.payload)
    (hrest : head + ev.payload.length = ev.word.toNat % 2 ^ 28) : OneSpelling ev i :=
  ⟨hi.1, hi.2, by rw [henc, countedWord, spelling_eq hk hrest rfl]⟩

/-- The six operand bytes of `CALC_WT` are its payload, in order (rule R90). -/
theorem calcWt_payload_eq (hlen : ev.payload.length = 6) :
    [(bigEndian (payloadByte ev 0) (payloadByte ev 1)).extractLsb' 8 8,
      (bigEndian (payloadByte ev 0) (payloadByte ev 1)).extractLsb' 0 8,
      (bigEndian (payloadByte ev 2) (payloadByte ev 3)).extractLsb' 8 8,
      (bigEndian (payloadByte ev 2) (payloadByte ev 3)).extractLsb' 0 8,
      payloadByte ev 4, payloadByte ev 5] = ev.payload := by
  obtain ⟨w, x⟩ := ev
  match x, hlen with
  | [_, _, _, _, _, _], _ => simp only [bigEndian_hi, bigEndian_lo]; rfl

end

/-- A word of KIND 0xA is spelled by its query row, FN by FN (rules R89, R90). -/
theorem oneSpelling_func {ev : RawEvent} {i : Instr} (hk : (ev.word.extractLsb' 28 4).toNat = 10)
    (hdec : decodeFunc ev = .ok i) : OneSpelling ev i := by
  have hlt : (ev.word.extractLsb' 24 4).toNat < 16 := BitVec.isLt _
  match hfn : (ev.word.extractLsb' 24 4).toNat, hlt with
  | 0, _ | 1, _ | 2, _ | 5, _ =>
    simp only [decodeFunc, hfn] at hdec
    rw [field_toNat] at hfn
    refine .of_ifZero hdec fun hzero hlen => .of_word hk ⟨trivial, rfl⟩ rfl ?_ ?_
    · simpa only [payloadLen, hk, hfn, field_toNat] using hlen
    · simp only [field_toNat]
      omega
  | 3, _ =>
    simp only [decodeFunc, hfn] at hdec
    refine .of_ifZero hdec fun hzero hlen => ⟨trivial, rfl, ?_⟩
    simp only [payloadLen, hk, hfn] at hlen
    rw [field_toNat] at hfn
    refine spelling_eq hk ?_ ?_
    · simp only [field_toNat]
      omega
    · exact calcWt_payload_eq hlen
  | 4, _ | 6, _ | 7, _ =>
    simp only [decodeFunc, hfn] at hdec
    refine .of_ifZero hdec fun hzero hlen => ?_
    simp only [payloadLen, hk, hfn, field_toNat] at hlen
    rw [field_toNat] at hfn
    exact .of_counted hk ⟨by simp only [Instr.wf]; omega, rfl⟩ rfl (by omega)
  | 8, _ | 9, _ | 10, _ | 11, _ | 12, _ | 13, _ | 14, _ | 15, _ =>
    simp only [decodeFunc, hfn] at hdec
    rw [field_toNat] at hfn
    refine .of_withPayload hdec fun hlen => .of_word hk ⟨trivial, rfl⟩ rfl ?_ ?_
    · simpa only [payloadLen, hk, hfn, field_toNat] using hlen
    · simp only [field_toNat]
      omega
  | n + 16, hlt => omega

/-- An accepted word is spelled by its row, KIND by KIND: the word is put together from its fields. -/
theorem oneSpelling_of_decode {ev : RawEvent} {i : Instr} (hdec : decode ev = .ok i) :
    OneSpelling ev i := by
  have hlt : (ev.word.extractLsb' 28 4).toNat < 16 := BitVec.isLt _
  match hk : (ev.word.extractLsb' 28 4).toNat, hlt with
  | 2, _ =>
    simp only [decode, hk] at hdec
    refine .of_ifZero hdec fun hzero hlen => .of_word hk ⟨trivial, rfl⟩ rfl ?_ (by omega)
    simpa only [payloadLen, hk] using hlen
  | 1, _ | 3, _ | 4, _ | 8, _ =>
    simp only [decode, hk] at hdec
    refine .of_ifZero hdec fun hzero hlen => .of_word hk ⟨trivial, rfl⟩ rfl ?_ ?_
    · simpa only [payloadLen, hk] using hlen
    · simp only [bit_toNat, field_toNat]
      omega
  | 5, _ | 7, _ =>
    simp only [decode, hk] at hdec
    refine .of_ifZero hdec fun hzero hlen => ?_
    simp only [payloadLen, hk, field_toNat] at hlen
    exact .of_counted hk ⟨by simp only [Instr.wf]; omega, rfl⟩ rfl (by omega)
  | 6, _ =>
    simp only [decode, hk] at hdec
    refine .of_ifZero hdec fun hzero hlen => ?_
    simp only [payloadLen, hk, field_toNat] at hlen
    have hbit := bit_toNat ev.word 16
    cases hnew : ev.word.getLsbD 16 with
    | true =>
      rw [hnew, Bool.toNat_true] at hbit
      exact .of_counted hk ⟨by simp only [if_true, Instr.wf]; omega, rfl⟩ rfl (by omega)
    | false =>
      rw [hnew, Bool.toNat_false] at hbit
      exact .of_counted hk ⟨by simp only [Bool.false_eq_true, if_false, Instr.wf]; omega, rfl⟩ rfl
        (by omega)
  | 10, _ =>
    simp only [decode, hk] at hdec
    exact oneSpelling_func hk hdec
  | 0, _ | 9, _ | 11, _ | 12, _ | 13, _ | 14, _ | 15, _ =>
    simp only [decode, hk] at hdec
    refine .of_withPayload hdec fun hlen => .of_word hk ⟨trivial, rfl⟩ rfl ?_ ?_
    · simpa only [payloadLen, hk] using hlen
    · simp only [field_toNat]
      omega
  | n + 16, hlt => omega

/-- Settles O2: an accepted word has the one spelling of its row. -/
theorem decodedEventHasOneSpelling : Obligations.DecodedEventHasOneSpelling := by
  unfold Obligations.DecodedEventHasOneSpelling
  exact fun ev i hdec => oneSpelling_of_decode hdec

/-! ### The word of a well-formed row is accepted as its event (rules R80 to R90) -/

/-- To decode the word of an event, know its number and its KIND. -/
theorem decode_eventWord {kind rest : Nat} {x : List Byte} {i : Instr} (hkind : kind < 16)
    (hrest : rest < 2 ^ 28)
    (h : ∀ w : Word, w.toNat = kind * 2 ^ 28 + rest → (w.extractLsb' 28 4).toNat = kind →
      decode ⟨w, x⟩ = .ok i) : decode ⟨eventWord kind rest, x⟩ = .ok i := by
  have hw := eventWord_toNat hkind hrest
  refine h _ hw ?_
  rw [field_toNat, hw]
  omega

theorem decode_lineByteWord (dir pe oe fe : Bool) (b : Byte) :
    decode (lineByteWord dir pe oe fe b) = .ok (.lineByte dir pe oe fe b) := by
  have := dir.toNat_le; have := pe.toNat_le; have := oe.toNat_le; have := fe.toNat_le
  refine decode_eventWord (by decide) (by omega) fun w hw hk => ?_
  have hdir : w.getLsbD 27 = dir := bit_eq_of_toNat (by omega)
  have hpe : w.getLsbD 10 = pe := bit_eq_of_toNat (by omega)
  have hoe : w.getLsbD 9 = oe := bit_eq_of_toNat (by omega)
  have hfe : w.getLsbD 8 = fe := bit_eq_of_toNat (by omega)
  have hb : w.extractLsb' 0 8 = b := field_eq_of_toNat (by omega)
  simp only [decode, hk, hdir, hpe, hoe, hfe, hb]
  exact ifZero_field_ok (by omega) (by simp only [payloadLen, hk]; rfl)

theorem decode_signalWord (clk vcc rst : Bool) :
    decode (signalWord clk vcc rst) = .ok (.signal clk vcc rst) := by
  have := clk.toNat_le; have := vcc.toNat_le; have := rst.toNat_le
  refine decode_eventWord (by decide) (by omega) fun w hw hk => ?_
  have hclk : w.getLsbD 2 = clk := bit_eq_of_toNat (by omega)
  have hvcc : w.getLsbD 1 = vcc := bit_eq_of_toNat (by omega)
  have hrst : w.getLsbD 0 = rst := bit_eq_of_toNat (by omega)
  simp only [decode, hk, hclk, hvcc, hrst]
  exact ifZero_field_ok (by omega) (by simp only [payloadLen, hk]; rfl)

/-- To decode the word of a query, know its number, its KIND and its FN. -/
theorem decode_funcEvent {fn rest : Nat} {x : List Byte} {i : Instr} (hfn : fn < 16)
    (hrest : rest < 2 ^ 24)
    (h : ∀ w : Word, w.toNat = 10 * 2 ^ 28 + (fn * 2 ^ 24 + rest) →
      (w.extractLsb' 28 4).toNat = 10 → (w.extractLsb' 24 4).toNat = fn →
      decodeFunc ⟨w, x⟩ = .ok i) : decode ⟨eventWord 10 (fn * 2 ^ 24 + rest), x⟩ = .ok i := by
  refine decode_eventWord (by decide) (by omega) fun w hw hk => ?_
  simp only [decode, hk]
  exact h w hw hk (by rw [field_toNat]; omega)

/-- FN 8 to 15 are reserved (rules R89, R91). -/
theorem decodeFunc_reserved {w : Word} {x : List Byte} (hfn : 8 ≤ (w.extractLsb' 24 4).toNat) :
    decodeFunc ⟨w, x⟩
      = withPayload ⟨w, x⟩ (.reservedFn (w.extractLsb' 24 3) (w.extractLsb' 0 24)) := by
  simp only [decodeFunc]
  split
  case h_9 => rfl
  all_goals omega

theorem payloadLen_reservedFn {w : Word} (hk : (w.extractLsb' 28 4).toNat = 10)
    (hfn : 8 ≤ (w.extractLsb' 24 4).toNat) : payloadLen w = 0 := by
  simp only [payloadLen, hk]
  split
  case h_5 => rfl
  all_goals omega

theorem decode_encode_reservedFn (fn : BitVec 3) (rest : BitVec 24) :
    decode (encode (.reservedFn fn rest)) = .ok (.reservedFn fn rest) := by
  refine decode_funcEvent (by omega) (by omega) fun w hw hk hfn => ?_
  have hreserved : 8 ≤ (w.extractLsb' 24 4).toNat := by omega
  have hlow : w.extractLsb' 24 3 = fn := field_eq_of_toNat (by omega)
  have hrest : w.extractLsb' 0 24 = rest := field_eq_of_toNat (by omega)
  rw [decodeFunc_reserved hreserved, hlow, hrest]
  exact withPayload_ok (payloadLen_reservedFn hk hreserved).symm

/-- The rows of KIND 0xA with an FN in use (rule R89). -/
def isQuery : Instr → Bool
  | .funcValidF _ => true
  | .funcValidD _ => true
  | .funcFidiRatio _ => true
  | .funcCalcWt _ _ _ _ _ => true
  | .funcClassifyCase _ => true
  | .funcClassifyPb _ _ => true
  | .funcAtrParse _ => true
  | .funcAtrBuild _ => true
  | _ => false

/-- A query row is read back with every operand (rules R89, R90). -/
theorem decode_encode_query {i : Instr} (hquery : isQuery i = true) (hwf : i.wf) :
    decode (encode i) = .ok i := by
  cases i with
  | funcValidF v | funcValidD v | funcFidiRatio v =>
    refine decode_funcEvent (by decide) (by omega) fun w hw hk hfn => ?_
    have hv : w.extractLsb' 0 _ = v := field_eq_of_toNat (by omega)
    simp only [decodeFunc, hfn, hv]
    exact ifZero_field_ok (by omega) (by simp only [payloadLen, hk, hfn]; rfl)
  | funcCalcWt wi fi f di d =>
    refine decode_funcEvent (by decide) (by omega) fun w hw hk hfn => ?_
    have hwi : w.extractLsb' 0 8 = wi := field_eq_of_toNat (by omega)
    simp only [decodeFunc, hfn, hwi, payloadByte, List.getD_cons_zero, List.getD_cons_succ,
      bigEndian_bytes]
    exact ifZero_field_ok (by omega) (by simp only [payloadLen, hk, hfn]; rfl)
  | funcClassifyPb ins b =>
    refine decode_funcEvent (by decide) (by omega) fun w hw hk hfn => ?_
    have hins : w.extractLsb' 8 8 = ins := field_eq_of_toNat (by omega)
    have hb : w.extractLsb' 0 8 = b := field_eq_of_toNat (by omega)
    simp only [decodeFunc, hfn, hins, hb]
    exact ifZero_field_ok (by omega) (by simp only [payloadLen, hk, hfn]; rfl)
  | funcClassifyCase x | funcAtrParse x | funcAtrBuild x =>
    simp only [Instr.wf] at hwf
    refine decode_funcEvent (by decide) (by omega) fun w hw hk hfn => ?_
    simp only [decodeFunc, hfn]
    exact ifZero_field_ok (by omega) (by simp only [payloadLen, hk, hfn, field_toNat]; omega)
  | _ => cases hquery

/-- A well-formed row that is its own event is read back with every operand. -/
theorem decode_encode_event {i : Instr} (hev : i.event = i) (hwf : i.wf) :
    decode (encode i) = .ok i := by
  cases i with
  | lineByte dir pe oe fe b => exact decode_lineByteWord dir pe oe fe b
  | wtExpiry => rfl
  | signal clk vcc rst => exact decode_signalWord clk vcc rst
  | cardInsert ins =>
    have := ins.toNat_le
    refine decode_eventWord (by decide) (by omega) fun w hw hk => ?_
    have hins : w.getLsbD 0 = ins := bit_eq_of_toNat (by omega)
    simp only [decode, hk, hins]
    exact ifZero_field_ok (by omega) (by simp only [payloadLen, hk]; rfl)
  | atrSet x | cardResp x =>
    simp only [Instr.wf] at hwf
    refine decode_eventWord (by decide) (by omega) fun w hw hk => ?_
    simp only [decode, hk]
    exact ifZero_field_ok (by omega) (by simp only [payloadLen, hk, field_toNat]; omega)
  | apduSegNew seg =>
    simp only [Instr.wf] at hwf
    refine decode_eventWord (by decide) (by omega) fun w hw hk => ?_
    have hnew : w.getLsbD 16 = true := bit_eq_of_toNat (by rw [Bool.toNat_true]; omega)
    simp only [decode, hk, hnew, if_true]
    exact ifZero_field_ok (by omega) (by simp only [payloadLen, hk, field_toNat]; omega)
  | apduSegCont seg =>
    simp only [Instr.wf] at hwf
    refine decode_eventWord (by decide) (by omega) fun w hw hk => ?_
    have hcont : w.getLsbD 16 = false := bit_eq_of_toNat (by rw [Bool.toNat_false]; omega)
    simp only [decode, hk, hcont, Bool.false_eq_true, if_false]
    exact ifZero_field_ok (by omega) (by simp only [payloadLen, hk, field_toNat]; omega)
  | statusIn flags =>
    refine decode_eventWord (by decide) (by omega) fun w hw hk => ?_
    have hflags : w.extractLsb' 0 5 = flags := field_eq_of_toNat (by omega)
    simp only [decode, hk, hflags]
    exact ifZero_field_ok (by omega) (by simp only [payloadLen, hk]; rfl)
  | funcValidF | funcValidD | funcFidiRatio | funcCalcWt | funcClassifyCase | funcClassifyPb
  | funcAtrParse | funcAtrBuild => exact decode_encode_query rfl hwf
  | reservedFn fn rest => exact decode_encode_reservedFn fn rest
  | reservedKind0 rest | reservedKind9 rest | reservedKindB rest | reservedKindC rest
  | reservedKindD rest | reservedKindE rest | reservedKindF rest =>
    refine decode_eventWord (by decide) (by omega) fun w hw hk => ?_
    have hrest : w.extractLsb' 0 28 = rest := field_eq_of_toNat (by omega)
    simp only [decode, hk, hrest]
    exact withPayload_ok (by simp only [payloadLen, hk]; rfl)
  | _ => cases hev

/-- Every row is written as its event, which is its own event and is well formed if the row is. -/
theorem eventOfRow (i : Instr) : Laws.EventOfRow.Statement i := by
  cases i with
  | atrSet | apduSegNew | apduSegCont | cardResp | funcClassifyCase | funcAtrParse | funcAtrBuild =>
    exact ⟨rfl, rfl, id⟩
  | _ => exact ⟨rfl, rfl, fun _ => trivial⟩

/-- Settles O1: a row is written as its event, and an event is read back. -/
theorem encodedRowDecodesToItsEvent : Obligations.EncodedRowDecodesToItsEvent := by
  unfold Obligations.EncodedRowDecodesToItsEvent
  intro i hwf
  obtain ⟨hencode, hevent, hkeepsWf⟩ := eventOfRow i
  rw [hencode]
  exact decode_encode_event hevent (hkeepsWf hwf)

/-- Settles O4: each word by evaluation of the decoder. -/
theorem wordsOfTheSpecDecode : Obligations.WordsOfTheSpecDecode :=
  ⟨rfl, rfl, rfl, rfl, rfl, rfl, rfl, rfl, rfl, rfl, rfl, rfl, rfl, rfl, rfl, rfl⟩

end Sys2Proof.Machine

/-! ## The timing table: `calculate_wt` and `fidi_to_ratio` are exact (rules R120 to R126) -/

namespace Sys2Proof.Machine

/-- A success names its number exactly where the number fits 32 bits (rule R126). -/
theorem timingResult_ok_ofNat_eq_iff {n : Nat} {v : Word} (hn : n < 2 ^ 32) :
    TimingResult.ok (BitVec.ofNat 32 n) = .ok v ↔ v.toNat = n := by
  have hfits : (BitVec.ofNat 32 n).toNat = n := Nat.mod_eq_of_lt hn
  rw [TimingResult.ok.injEq, BitVec.toNat_eq, hfits, eq_comm]

/-! ### What a valid F and a valid D can be (rules R120, R122, R123) -/

/-- The non-zero Fi entries run from 372 to 2048. -/
theorem fiOf_range : ∀ k : Nibble, fiOf k ≠ 0 → 372 ≤ (fiOf k).toNat ∧ (fiOf k).toNat ≤ 2048 := by
  decide

theorem validF_range {f : Half} (hf : validF f = true) : 372 ≤ f.toNat ∧ f.toNat ≤ 2048 := by
  rw [validF_eq_decide, decide_eq_true_iff] at hf
  obtain ⟨hne, k, rfl⟩ := hf
  exact fiOf_range k hne

/-! ### `calculate_wt` (rules R124, R126) -/

section
variable {t : DiTail} {wi di d : Byte} {fi f : Half} {v : Word}

/-- The waiting time as a number: quotients truncated first, in the source's order (rule R124). -/
def wtProduct (wi : Byte) (fi : Half) (di : Byte) (f : Half) (d : Byte) : Nat :=
  wi.toNat * 960 * (fi.toNat / f.toNat) * (di.toNat / d.toNat)

/-- The widest product is 255 * 960 * (2048 / 372) * 255, well within 32 bits (rule R126). -/
theorem wtProduct_le (hfi : validF fi = true) (hf : validF f = true) :
    wtProduct wi fi di f d ≤ 312120000 := by
  obtain ⟨-, hfiMax⟩ := validF_range hfi
  obtain ⟨hfMin, -⟩ := validF_range hf
  have hwi : wi.toNat ≤ 255 := by omega
  have hquotF : fi.toNat / f.toNat ≤ 5 := Nat.div_le_div hfiMax hfMin (by decide)
  have hquotD : di.toNat / d.toNat ≤ 255 := (Nat.div_le_self _ _).trans (by omega)
  calc wi.toNat * 960 * (fi.toNat / f.toNat) * (di.toNat / d.toNat)
    _ ≤ 255 * 960 * 5 * 255 := by gcongr
    _ = 312120000 := by norm_num

/-- The checks of `calculate_wt`: WI, both F values, both D values, no excess (rule R124). -/
structure WtChecks (t : DiTail) (wi : Byte) (fi : Half) (di : Byte) (f : Half) (d : Byte) :
    Prop where
  wi : wi ≠ 0
  capF : validF fi = true
  opF : validF f = true
  capD : validD t di = true
  opD : validD t d = true
  leF : f.toNat ≤ fi.toNat
  leD : d.toNat ≤ di.toNat

theorem calcWt_of_checks (h : WtChecks t wi fi di f d) :
    calcWt t wi fi di f d = .ok (BitVec.ofNat 32 (wtProduct wi fi di f d)) := by
  have hvalidD : ¬ (!validD t di || !validD t d) = true := by simp [h.capD, h.opD]
  have hnarrows : ¬ (fi.toNat < f.toNat ∨ di.toNat < d.toNat) :=
    not_or.mpr ⟨h.leF.not_gt, h.leD.not_gt⟩
  rw [calcWt_of_validF h.wi h.capF h.opF, if_neg hvalidD, if_neg hnarrows, wtProduct]

/-- A failed check is an error, so a success has passed each of them. -/
theorem wtChecks_of_calcWt_ok (h : calcWt t wi fi di f d = .ok v) : WtChecks t wi fi di f d := by
  have hok : ∀ e, calcWt t wi fi di f d ≠ .err e := by simp [h]
  have hwi : wi ≠ 0 := fun hzero => hok _ (calcWt_invalidWi hzero)
  have hF : ¬ (validF fi = false ∨ validF f = false) := fun hbad => hok _ (calcWt_invalidF hwi hbad)
  simp only [not_or, Bool.not_eq_false] at hF
  obtain ⟨hfi, hf⟩ := hF
  have hD : ¬ (validD t di = false ∨ validD t d = false) :=
    fun hbad => hok _ (calcWt_invalidD hwi hfi hf hbad)
  simp only [not_or, Bool.not_eq_false] at hD
  obtain ⟨hdi, hd⟩ := hD
  have hnarrows : ¬ (fi.toNat < f.toNat ∨ di.toNat < d.toNat) :=
    fun hexcess => hok _ (calcWt_protocolViolation hwi hfi hf hdi hd hexcess)
  simp only [not_or, Nat.not_lt] at hnarrows
  obtain ⟨hleF, hleD⟩ := hnarrows
  exact ⟨hwi, hfi, hf, hdi, hd, hleF, hleD⟩

theorem calcWt_eq_ok_iff :
    calcWt t wi fi di f d = .ok v
      ↔ WtChecks t wi fi di f d ∧ v.toNat = wtProduct wi fi di f d := by
  have hvalue (h : WtChecks t wi fi di f d) :
      calcWt t wi fi di f d = .ok v ↔ v.toNat = wtProduct wi fi di f d := by
    rw [calcWt_of_checks h]
    exact timingResult_ok_ofNat_eq_iff ((wtProduct_le h.capF h.opF).trans_lt (by decide))
  constructor
  · intro hok
    have hchecks := wtChecks_of_calcWt_ok hok
    exact ⟨hchecks, (hvalue hchecks).mp hok⟩
  · rintro ⟨hchecks, hv⟩
    exact (hvalue hchecks).mpr hv

end

/-- Settles O31: a success is the checks and the product, and the product fits 32 bits. -/
theorem calculateWtIsExact : Obligations.CalculateWtIsExact := by
  unfold Obligations.CalculateWtIsExact
  intro t wi fi f di d v
  rw [calcWt_eq_ok_iff]
  refine ⟨⟨?checks, ?success⟩, ?bound⟩
  case checks =>
    exact fun ⟨⟨hwi, hfi, hf, hdi, hd, hleF, hleD⟩, hv⟩ => ⟨hwi, hfi, hf, hdi, hd, hleF, hleD, hv⟩
  case success =>
    exact fun ⟨hwi, hfi, hf, hdi, hd, hleF, hleD, hv⟩ => ⟨⟨hwi, hfi, hf, hdi, hd, hleF, hleD⟩, hv⟩
  case bound =>
    rintro ⟨hchecks, hv⟩
    rw [hv]
    exact wtProduct_le hchecks.capF hchecks.opF

/-! ### `fidi_to_ratio` (rules R125, R126) -/

section
variable {t : DiTail} {x : Byte}

/-- The ratio as a number: divide below Di index 8, multiply from it on (rule R125). -/
def ratioNumber (t : DiTail) (x : Byte) : Nat :=
  if (loNibble x).toNat < 8
    then (fiOf (hiNibble x)).toNat / (diOf t (loNibble x)).toNat
    else (fiOf (hiNibble x)).toNat * (diOf t (loNibble x)).toNat

/-- A 16-bit entry divided or multiplied by an 8-bit one fits 32 bits (rule R126). -/
theorem ratioNumber_lt (t : DiTail) (x : Byte) : ratioNumber t x < 2 ^ 32 := by
  have hf : (fiOf (hiNibble x)).toNat < 2 ^ 16 := BitVec.isLt _
  have hd : (diOf t (loNibble x)).toNat < 2 ^ 8 := BitVec.isLt _
  unfold ratioNumber
  split
  case isTrue => exact (Nat.div_le_self _ _).trans_lt (hf.trans (by decide))
  case isFalse => exact (Nat.mul_lt_mul'' hf hd).trans (by decide)

theorem fidiToRatio_invalidF (hf : fiOf (hiNibble x) = 0) : fidiToRatio t x = .err .invalidF := by
  rw [fidiToRatio, if_pos hf]

theorem fidiToRatio_invalidD (hf : fiOf (hiNibble x) ≠ 0) (hd : diOf t (loNibble x) = 0) :
    fidiToRatio t x = .err .invalidD := by
  rw [fidiToRatio, if_neg hf, if_pos hd]

theorem fidiToRatio_of_ne_zero (hf : fiOf (hiNibble x) ≠ 0) (hd : diOf t (loNibble x) ≠ 0) :
    fidiToRatio t x = .ok (BitVec.ofNat 32 (ratioNumber t x)) := by
  rw [fidiToRatio, if_neg hf, if_neg hd, ratioNumber]
  split
  case isTrue => rfl
  case isFalse => rfl

end

/-- Settles O32: the halves select the answer, Fi before Di, and the ratio fits 32 bits. -/
theorem fidiRatioIsExact : Obligations.FidiRatioIsExact := by
  unfold Obligations.FidiRatioIsExact
  intro t x v
  by_cases hf : fiOf (hiNibble x) = 0
  · rw [fidiToRatio_invalidF hf]
    exact ⟨iff_of_false nofun fun ⟨hne, _⟩ => hne hf, iff_of_true rfl hf,
      iff_of_false nofun fun ⟨hne, _⟩ => hne hf⟩
  by_cases hd : diOf t (loNibble x) = 0
  · rw [fidiToRatio_invalidD hf hd]
    exact ⟨iff_of_false nofun fun ⟨_, hne, _⟩ => hne hd, iff_of_false nofun hf,
      iff_of_true rfl ⟨hf, hd⟩⟩
  · rw [fidiToRatio_of_ne_zero hf hd, timingResult_ok_ofNat_eq_iff (ratioNumber_lt t x)]
    exact ⟨⟨fun hv => ⟨hf, hd, hv⟩, fun ⟨_, _, hv⟩ => hv⟩, iff_of_false nofun hf,
      iff_of_false nofun fun ⟨_, hzero⟩ => hd hzero⟩

end Sys2Proof.Machine

/-! ## The ATR parser and builder are inverse (rules R154 to R158) -/

namespace Sys2Proof.Machine

/-! ### One byte of the parse (rule R154) -/

/-- The registers after a byte: the append, then the byte rule (rules R142, R222). -/
def readAtrByte (wiIdx b : Byte) (r : AtrRegs) : AtrRegs :=
  takeAtrByte wiIdx b { r with buf := r.buf ++ [b] }

section
variable {atrMax used n : Nat} {wiIdx b : Byte} {r : AtrRegs} {a a' : AtrStruct} {x : List Byte}

theorem readAtrByte_buf_length : (readAtrByte wiIdx b r).buf.length = r.buf.length + 1 := by
  rw [readAtrByte, takeAtrByte_buf, List.length_append, List.length_singleton]

theorem parseFrom_done_nil (hst : r.st = .done) :
    parseFrom atrMax wiIdx r a used [] = .complete a := by
  rw [parseFrom, if_pos hst]

theorem parseFrom_done_cons (hst : r.st = .done) :
    parseFrom atrMax wiIdx r a used (b :: x) = .trailing a used := by
  rw [parseFrom, if_pos hst]

theorem parseFrom_nil (hst : r.st ≠ .done) :
    parseFrom atrMax wiIdx r a used [] = .incomplete r.st := by
  rw [parseFrom, if_neg hst]

theorem parseFrom_cons_full (hst : r.st ≠ .done) (hfull : r.buf.length = atrMax) :
    parseFrom atrMax wiIdx r a used (b :: x) = .overflow := by
  rw [parseFrom, if_neg hst, if_pos hfull]

theorem parseFrom_cons (hst : r.st ≠ .done) (hroom : r.buf.length ≠ atrMax) :
    parseFrom atrMax wiIdx r a used (b :: x)
      = parseFrom atrMax wiIdx (readAtrByte wiIdx b r) (recordAtrByte r b a) (used + 1) x := by
  rw [parseFrom, if_neg hst, if_neg hroom, readAtrByte]

/-- Where all bytes fit the buffer there is room for the first, and the others fit after it. -/
theorem parseFrom_cons_of_fits (wiIdx : Byte) (a : AtrStruct) (used : Nat) (hst : r.st ≠ .done)
    (hfits : r.buf.length + (b :: x).length ≤ atrMax) :
    parseFrom atrMax wiIdx r a used (b :: x)
        = parseFrom atrMax wiIdx (readAtrByte wiIdx b r) (recordAtrByte r b a) (used + 1) x
      ∧ (readAtrByte wiIdx b r).buf.length + x.length ≤ atrMax := by
  rw [List.length_cons] at hfits
  refine ⟨parseFrom_cons hst (by omega), ?_⟩
  rw [readAtrByte_buf_length]
  omega

theorem parseFrom_eq_complete_of_done (hst : r.st = .done) :
    parseFrom atrMax wiIdx r a used x = .complete a' ↔ x = [] ∧ a' = a := by
  cases x with
  | nil => simp [parseFrom_done_nil hst, eq_comm (a := a)]
  | cons b x => simp [parseFrom_done_cons hst]

/-- Only `Done` completes without a byte. -/
theorem parseFrom_nil_ne_complete (hst : r.st ≠ .done) :
    parseFrom atrMax wiIdx r a used [] ≠ .complete a' := by
  rw [parseFrom_nil hst]
  nofun

/-- A parse has trailing bytes exactly if it is complete before the last of them, and it has used the
bytes of that beginning (rule R154). -/
theorem parseFrom_eq_trailing_iff :
    parseFrom atrMax wiIdx r a used x = .trailing a' n
      ↔ ∃ m < x.length, n = used + m
        ∧ parseFrom atrMax wiIdx r a used (x.take m) = .complete a' := by
  induction x generalizing r a used with
  | nil =>
    refine iff_of_false ?_ (by simp)
    unfold parseFrom
    split_ifs <;> nofun
  | cons b x ih =>
    by_cases hst : r.st = .done
    · rw [parseFrom_done_cons hst]
      constructor
      · rintro ⟨⟩
        exact ⟨0, by simp, rfl, parseFrom_done_nil hst⟩
      · rintro ⟨m, hm, rfl, hparse⟩
        obtain ⟨htake, rfl⟩ := (parseFrom_eq_complete_of_done hst).mp hparse
        obtain rfl : m = 0 := by simpa using htake
        rfl
    have hzero := parseFrom_nil_ne_complete (atrMax := atrMax) (wiIdx := wiIdx) (a := a) (a' := a')
      (used := used) hst
    by_cases hroom : r.buf.length = atrMax
    · rw [parseFrom_cons_full hst hroom]
      refine iff_of_false nofun ?_
      rintro ⟨_ | m, -, -, hparse⟩
      · exact hzero hparse
      · rw [List.take_succ_cons, parseFrom_cons_full hst hroom] at hparse
        cases hparse
    · rw [parseFrom_cons hst hroom, ih]
      constructor
      · rintro ⟨m, hm, rfl, hparse⟩
        refine ⟨m + 1, Nat.succ_lt_succ hm, by omega, ?_⟩
        rwa [List.take_succ_cons, parseFrom_cons hst hroom]
      · rintro ⟨_ | m, hm, rfl, hparse⟩
        · exact absurd hparse hzero
        · rw [List.take_succ_cons, parseFrom_cons hst hroom] at hparse
          exact ⟨m, Nat.lt_of_succ_lt_succ hm, by omega, hparse⟩

/-- `Trailing` names the beginning that is complete (rule R154). -/
theorem atrParse_eq_trailing_iff {p : Params} :
    atrParse p x = .trailing a n ↔ n < x.length ∧ atrParse p (x.take n) = .complete a := by
  rw [atrParse, parseFrom_eq_trailing_iff]
  simp [atrParse]

end

/-! ### What the registers announce (rules R141, R144 to R150)

Where all bytes fit the buffer, the parse from any registers completes on exactly the bytes that the
registers announce. This is shown from the last part of an ATR to the first: the check byte, the
historical bytes, the interface bytes, TS and T0. -/

/-- The structure `a` with interface and historical bytes added and the check byte that ends it. -/
def AtrStruct.finish (a : AtrStruct) (ifb : List IfByte) (hist : List Byte) (tck : Option Byte) :
    AtrStruct :=
  { a with ifb := a.ifb ++ ifb, hist := a.hist ++ hist, tck := tck }

/-- The kind from which the next interface byte is looked for after one of kind `k`: the next kind of the
group, or the first of the group that a TD opens (rules R141, R148). -/
def kindAfter : IfKind → Nat
  | .ta => 1
  | .tb => 2
  | .tc => 3
  | .td => 0

/-- Some TD of the interface bytes names a protocol other than T=0 (rule R157, check 3). -/
def namesProtocol (ifb : List IfByte) : Bool :=
  ifb.any fun e => e.kind == .td && loNibble e.value != 0

theorem needsTck_eq (a : AtrStruct) : needsTck a = namesProtocol a.ifb := rfl

/-- What the registers `r` announce, interface bytes from kind `k0` on. -/
structure Announced (r : AtrRegs) (k0 : Nat) (ifb : List IfByte) (hist : List Byte)
    (tck : Option Byte) : Prop where
  expected : ifbExpected r.y r.idx k0 ifb = true
  count : r.k.toNat = hist.length
  check : tck.isSome = (r.tckNeeded || namesProtocol ifb)

section
variable {atrMax used k0 : Nat} {wiIdx b : Byte} {r : AtrRegs} {a a' : AtrStruct} {x : List Byte}
  {ifb : List IfByte} {hist : List Byte} {tck : Option Byte} {k : IfKind} {e : IfByte}

/-! ### The check byte (rule R150) -/

/-- After the historical bytes the check byte is left, if it is needed. -/
theorem parseFrom_tck_iff (hst : r.st = if r.tckNeeded = true then .waitTCK else .done)
    (hfits : r.buf.length + x.length ≤ atrMax) (ha : a.tck = none) :
    parseFrom atrMax wiIdx r a used x = .complete a'
      ↔ ∃ tck : Option Byte, tck.isSome = r.tckNeeded ∧ x = tck.toList
        ∧ a' = a.finish [] [] tck := by
  cases hneeded : r.tckNeeded with
  | false =>
    have hst : r.st = .done := by simpa [hneeded] using hst
    have hfinish : a.finish [] [] none = a := by simp [AtrStruct.finish, ← ha]
    simp [parseFrom_eq_complete_of_done hst, hfinish]
  | true =>
    have hst : r.st = .waitTCK := by simpa [hneeded] using hst
    have hne : r.st ≠ .done := by simp [hst]
    cases x with
    | nil => simp [parseFrom_nil_ne_complete hne]
    | cons b x =>
      obtain ⟨hparse, -⟩ := parseFrom_cons_of_fits wiIdx a used hne hfits
      have hdone : (readAtrByte wiIdx b r).st = .done := by
        simp [readAtrByte, takeAtrByte, hst, takeTck]
      have hrecord : recordAtrByte r b a = a.finish [] [] (some b) := by
        simp [recordAtrByte, hst, AtrStruct.finish]
      rw [hparse, parseFrom_eq_complete_of_done hdone, hrecord]
      simp [Option.isSome_iff_exists, and_assoc]

/-! ### The historical bytes (rule R149) -/

theorem histOrEnd_of_zero (hk : r.k = 0) :
    histOrEnd r = if r.tckNeeded = true then .waitTCK else .done := by
  rw [histOrEnd, if_neg (not_not_intro hk)]

theorem histOrEnd_of_ne_zero (hk : r.k ≠ 0) : histOrEnd r = .waitHist := by
  rw [histOrEnd, if_pos hk]

/-- A historical byte leaves the parser as if one less had been announced. -/
theorem readAtrByte_hist (hst : r.st = .waitHist) :
    (readAtrByte wiIdx b r).st = histOrEnd (readAtrByte wiIdx b r)
      ∧ (readAtrByte wiIdx b r).k = r.k - 1
      ∧ (readAtrByte wiIdx b r).tckNeeded = r.tckNeeded := by
  by_cases hk : r.k - 1#4 = 0#4
  · simp [readAtrByte, takeAtrByte, hst, takeHist, histOrEnd, hk]
  · simp [readAtrByte, takeAtrByte, hst, takeHist, histOrEnd, hk]

theorem recordAtrByte_hist (hst : r.st = .waitHist) :
    recordAtrByte r b a = { a with hist := a.hist ++ [b] } := by
  simp only [recordAtrByte, hst]

/-- After the interface bytes the historical bytes and the check byte are left. -/
theorem parseFrom_hist_iff (hst : r.st = histOrEnd r)
    (hfits : r.buf.length + x.length ≤ atrMax) (ha : a.tck = none) :
    parseFrom atrMax wiIdx r a used x = .complete a'
      ↔ ∃ (hist : List Byte) (tck : Option Byte), r.k.toNat = hist.length
        ∧ tck.isSome = r.tckNeeded ∧ x = hist ++ tck.toList ∧ a' = a.finish [] hist tck := by
  induction hn : r.k.toNat generalizing r a x used with
  | zero =>
    have hk : r.k = 0 := BitVec.eq_of_toNat_eq hn
    rw [parseFrom_tck_iff (hst.trans (histOrEnd_of_zero hk)) hfits ha]
    constructor
    · rintro ⟨tck, h⟩
      exact ⟨[], tck, rfl, h⟩
    · rintro ⟨hist, tck, hlen, h⟩
      obtain rfl := List.eq_nil_of_length_eq_zero hlen.symm
      exact ⟨tck, h⟩
  | succ n ih =>
    have hk : r.k ≠ 0 := by rintro hk; simp [hk] at hn
    have hst : r.st = .waitHist := hst.trans (histOrEnd_of_ne_zero hk)
    have hne : r.st ≠ .done := by simp [hst]
    cases x with
    | nil =>
      refine iff_of_false (parseFrom_nil_ne_complete hne) ?_
      rintro ⟨hist, tck, hlen, -, hx, -⟩
      obtain ⟨rfl, -⟩ := List.append_eq_nil_iff.mp hx.symm
      cases hlen
    | cons b x =>
      obtain ⟨hparse, hfits'⟩ := parseFrom_cons_of_fits wiIdx a used hne hfits
      obtain ⟨hst', hk', hneeded⟩ := readAtrByte_hist (wiIdx := wiIdx) (b := b) hst
      have hn' : (readAtrByte wiIdx b r).k.toNat = n := by rw [hk']; bv_omega
      have ha' : (recordAtrByte r b a).tck = none := by rwa [recordAtrByte_hist hst]
      have hfinish (hist tck) :
          (recordAtrByte r b a).finish [] hist tck = a.finish [] (b :: hist) tck := by
        simp [recordAtrByte_hist hst, AtrStruct.finish]
      simp only [hparse, ih hst' hfits' ha' hn', hneeded, hfinish]
      constructor
      · rintro ⟨hist, tck, rfl, hcheck, rfl, rfl⟩
        exact ⟨b :: hist, tck, rfl, hcheck, rfl, rfl⟩
      · rintro ⟨_ | ⟨b, hist⟩, tck, hlen, hcheck, hx, rfl⟩
        · cases hlen
        · obtain ⟨rfl, rfl⟩ := List.cons.inj hx
          exact ⟨hist, tck, Nat.succ.inj hlen, hcheck, rfl, rfl⟩

/-! ### The interface bytes (rules R145 to R148) -/

/-- An interface byte leaves the parser at the next one its group announces, the historical bytes to come
as they were. -/
theorem readAtrByte_interface (hst : r.st = waitOf k) :
    (readAtrByte wiIdx b r).st = waitFrom (readAtrByte wiIdx b r) (kindAfter k)
      ∧ (readAtrByte wiIdx b r).k = r.k := by
  cases k <;> simp only [readAtrByte, takeAtrByte, hst, waitOf] <;> exact ⟨rfl, rfl⟩

theorem recordAtrByte_interface (hst : r.st = waitOf k) :
    recordAtrByte r b a = { a with ifb := a.ifb ++ [⟨r.idx, k, b⟩] } := by
  cases k <;> simp only [recordAtrByte, hst, waitOf]

/-- Only a TD can make the check byte needed (rule R148). -/
theorem readAtrByte_tckNeeded (wiIdx : Byte) (hst : r.st = waitOf e.kind) :
    ((readAtrByte wiIdx e.value r).tckNeeded || namesProtocol ifb)
      = (r.tckNeeded || namesProtocol (e :: ifb)) := by
  obtain ⟨i, k, v⟩ := e
  cases k with
  | ta | tb | tc => simp only [readAtrByte, takeAtrByte, hst, waitOf]; rfl
  | td =>
    by_cases hv : loNibble v = 0#4
    · simp [readAtrByte, takeAtrByte, hst, waitOf, takeTd, namesProtocol, hv]
    · simp [readAtrByte, takeAtrByte, hst, waitOf, takeTd, namesProtocol, hv]

/-- The walk of `atr_wf` and the parser expect the same interface byte, and after it the same ones (rule
R157, check 2). -/
theorem ifbExpected_cons_iff (wiIdx : Byte) (hfirst : firstPresent r.y k0 = some k)
    (hst : r.st = waitOf k) :
    ifbExpected r.y r.idx k0 (e :: ifb) = true
      ↔ e.i = r.idx ∧ e.kind = k
        ∧ ifbExpected (readAtrByte wiIdx e.value r).y (readAtrByte wiIdx e.value r).idx
            (kindAfter k) ifb = true := by
  cases k <;>
    simp [ifbExpected, hfirst, readAtrByte, takeAtrByte, hst, waitOf, takeTa, takeTb, takeTc,
      takeTd, kindAfter, and_assoc]

theorem ifbExpected_nil_iff {y : Nibble} {i : Byte} :
    ifbExpected y i k0 [] = true ↔ firstPresent y k0 = none := by
  rw [ifbExpected, Option.isNone_iff_eq_none]

/-- With no presence bit left no interface byte is expected. -/
theorem ifbExpected_of_none {y : Nibble} {i : Byte} (hfirst : firstPresent y k0 = none) :
    ifbExpected y i k0 ifb = true ↔ ifb = [] := by
  cases ifb <;> simp [ifbExpected, hfirst]

/-- The registers announce an interface byte and what the registers after it announce. -/
theorem announced_cons_iff (wiIdx : Byte) (hfirst : firstPresent r.y k0 = some k)
    (hst : r.st = waitOf k) :
    Announced r k0 (e :: ifb) hist tck
      ↔ e.i = r.idx ∧ e.kind = k
        ∧ Announced (readAtrByte wiIdx e.value r) (kindAfter k) ifb hist tck := by
  obtain ⟨-, hcount⟩ := readAtrByte_interface (wiIdx := wiIdx) (b := e.value) hst
  constructor
  · rintro ⟨hexpected, hlen, hcheck⟩
    obtain ⟨hi, rfl, hrest⟩ := (ifbExpected_cons_iff wiIdx hfirst hst).mp hexpected
    exact ⟨hi, rfl, hrest, hcount ▸ hlen, by rw [hcheck, readAtrByte_tckNeeded wiIdx hst]⟩
  · rintro ⟨hi, rfl, hrest, hlen, hcheck⟩
    exact ⟨(ifbExpected_cons_iff wiIdx hfirst hst).mpr ⟨hi, rfl, hrest⟩, hcount ▸ hlen,
      by rw [hcheck, readAtrByte_tckNeeded wiIdx hst]⟩

/-- Without an interface byte to come the historical bytes follow (rule R141). -/
theorem parseFrom_noInterface_iff (hfirst : firstPresent r.y k0 = none) (hst : r.st = waitFrom r k0)
    (hfits : r.buf.length + x.length ≤ atrMax) (ha : a.tck = none) :
    parseFrom atrMax wiIdx r a used x = .complete a'
      ↔ ∃ ifb hist tck, Announced r k0 ifb hist tck
        ∧ x = ifb.map IfByte.value ++ hist ++ tck.toList ∧ a' = a.finish ifb hist tck := by
  have hst : r.st = histOrEnd r := by rw [hst, waitFrom, hfirst]
  rw [parseFrom_hist_iff hst hfits ha]
  constructor
  · rintro ⟨hist, tck, hlen, hcheck, hx, ha'⟩
    have hexpected : ifbExpected r.y r.idx k0 [] = true := ifbExpected_nil_iff.mpr hfirst
    exact ⟨[], hist, tck, ⟨hexpected, hlen, by simp [hcheck, namesProtocol]⟩, hx, ha'⟩
  · rintro ⟨ifb, hist, tck, ⟨hexpected, hlen, hcheck⟩, hx, ha'⟩
    obtain rfl := (ifbExpected_of_none hfirst).mp hexpected
    exact ⟨hist, tck, hlen, by simpa [namesProtocol] using hcheck, hx, ha'⟩

/-- After T0 the interface bytes, the historical bytes and the check byte are left. -/
theorem parseFrom_interface_iff (hst : r.st = waitFrom r k0)
    (hfits : r.buf.length + x.length ≤ atrMax) (ha : a.tck = none) :
    parseFrom atrMax wiIdx r a used x = .complete a'
      ↔ ∃ ifb hist tck, Announced r k0 ifb hist tck
        ∧ x = ifb.map IfByte.value ++ hist ++ tck.toList ∧ a' = a.finish ifb hist tck := by
  induction x generalizing r a used k0 with
  | nil =>
    cases hfirst : firstPresent r.y k0 with
    | none => exact parseFrom_noInterface_iff hfirst hst hfits ha
    | some k =>
      have hst : r.st = waitOf k := by rw [hst, waitFrom, hfirst]
      refine iff_of_false (parseFrom_nil_ne_complete (by rw [hst]; cases k <;> nofun)) ?_
      rintro ⟨_ | ⟨e, ifb⟩, hist, tck, hann, hx, -⟩
      · rw [ifbExpected_nil_iff.mp hann.expected] at hfirst
        cases hfirst
      · cases hx
  | cons b x ih =>
    cases hfirst : firstPresent r.y k0 with
    | none => exact parseFrom_noInterface_iff hfirst hst hfits ha
    | some k =>
      have hst : r.st = waitOf k := by rw [hst, waitFrom, hfirst]
      have hne : r.st ≠ .done := by rw [hst]; cases k <;> nofun
      obtain ⟨hparse, hfits'⟩ := parseFrom_cons_of_fits wiIdx a used hne hfits
      obtain ⟨hst', -⟩ := readAtrByte_interface (wiIdx := wiIdx) (b := b) hst
      have ha' : (recordAtrByte r b a).tck = none := by rwa [recordAtrByte_interface hst]
      have hfinish (ifb hist tck) : (recordAtrByte r b a).finish ifb hist tck
          = a.finish (⟨r.idx, k, b⟩ :: ifb) hist tck := by
        simp [recordAtrByte_interface hst, AtrStruct.finish]
      simp only [hparse, ih hst' hfits' ha', hfinish]
      constructor
      · rintro ⟨ifb, hist, tck, hann, rfl, rfl⟩
        exact ⟨⟨r.idx, k, b⟩ :: ifb, hist, tck,
          (announced_cons_iff wiIdx hfirst hst).mpr ⟨rfl, rfl, hann⟩, rfl, rfl⟩
      · rintro ⟨_ | ⟨⟨i, k', v⟩, ifb⟩, hist, tck, hann, hx, rfl⟩
        · rw [ifbExpected_nil_iff.mp hann.expected] at hfirst
          cases hfirst
        · obtain ⟨rfl, rfl, hann⟩ := (announced_cons_iff wiIdx hfirst hst).mp hann
          obtain ⟨rfl, rfl⟩ := List.cons.inj hx
          exact ⟨ifb, hist, tck, hann, rfl, rfl⟩

end

/-! ### The whole ATR (rules R154 to R158) -/

section
variable {p : Params} {x : List Byte} {a : AtrStruct}

theorem cleared_not_done : AtrRegs.cleared.st ≠ .done := by decide

theorem afterTs_not_done {wiIdx ts : Byte} : (readAtrByte wiIdx ts .cleared).st ≠ .done :=
  show AtrState.waitT0 ≠ .done by decide

/-- The registers after TS and T0 (rules R143, R144). -/
def afterT0 (wiIdx ts t0 : Byte) : AtrRegs :=
  readAtrByte wiIdx t0 (readAtrByte wiIdx ts .cleared)

theorem afterT0_st {wiIdx ts t0 : Byte} :
    (afterT0 wiIdx ts t0).st = waitFrom (afterT0 wiIdx ts t0) 0 := rfl

theorem atrBytes_length (a : AtrStruct) : (atrBytes a).length = atrLength a := by
  obtain ⟨ts, t0, ifb, hist, tck⟩ := a
  cases tck <;> simp [atrBytes, atrLength] <;> omega

/-- A structure is well formed if its TS and T0 announce the rest of it and its bytes fit (rule R157). -/
theorem atrWf_iff {atrMax : Nat} (wiIdx : Byte) :
    atrWf atrMax a = true
      ↔ Announced (afterT0 wiIdx a.ts a.t0) 0 a.ifb a.hist a.tck ∧ atrLength a ≤ atrMax := by
  simp only [atrWf, Bool.and_eq_true, beq_iff_eq, decide_eq_true_iff, needsTck_eq]
  constructor
  · rintro ⟨⟨⟨hlen, hexpected⟩, hcheck⟩, hfits⟩
    exact ⟨⟨hexpected, hlen, hcheck⟩, hfits⟩
  · rintro ⟨⟨hexpected, hlen, hcheck⟩, hfits⟩
    exact ⟨⟨⟨hlen, hexpected⟩, hcheck⟩, hfits⟩

/-- The parse of a whole ATR is the parse after its first two bytes. -/
theorem atrParse_cons_cons {ts t0 : Byte} (hfits : (ts :: t0 :: x).length ≤ p.atrMax) :
    atrParse p (ts :: t0 :: x)
        = parseFrom p.atrMax p.wiTcIndex (afterT0 p.wiTcIndex ts t0) ⟨ts, t0, [], [], none⟩ 2 x
      ∧ (afterT0 p.wiTcIndex ts t0).buf.length + x.length ≤ p.atrMax := by
  have hempty : AtrRegs.cleared.buf.length + (ts :: t0 :: x).length ≤ p.atrMax := by
    rwa [AtrRegs.cleared, List.length_nil, Nat.zero_add]
  obtain ⟨hts, hfits⟩ := parseFrom_cons_of_fits p.wiTcIndex emptyAtr 0 cleared_not_done hempty
  obtain ⟨ht0, hfits⟩ := parseFrom_cons_of_fits p.wiTcIndex { emptyAtr with ts := ts } 1
    afterTs_not_done hfits
  exact ⟨hts.trans ht0, hfits⟩

/-- A parse completes with a structure exactly if the structure is well formed and the bytes are its
bytes. -/
theorem atrParse_eq_complete_iff :
    atrParse p x = .complete a ↔ atrWf p.atrMax a = true ∧ x = atrBytes a := by
  rw [atrWf_iff p.wiTcIndex]
  by_cases hfits : x.length ≤ p.atrMax
  case neg =>
    refine iff_of_false (fun hparse => hfits ?_) ?_
    · simpa [AtrRegs.cleared] using parseFrom_complete_length (Nat.zero_le _) hparse
    · rintro ⟨⟨-, hlen⟩, rfl⟩
      exact hfits (atrBytes_length a ▸ hlen)
  match x with
  | [] =>
    exact iff_of_false (parseFrom_nil_ne_complete cleared_not_done) fun ⟨_, hx⟩ => by cases hx
  | [ts] =>
    refine iff_of_false ?_ fun ⟨_, hx⟩ => by cases hx
    have hroom : AtrRegs.cleared.buf.length ≠ p.atrMax :=
      (Nat.lt_of_lt_of_le Nat.zero_lt_one hfits).ne
    rw [atrParse, parseFrom_cons cleared_not_done hroom]
    exact parseFrom_nil_ne_complete afterTs_not_done
  | ts :: t0 :: x =>
    obtain ⟨hparse, hfits'⟩ := atrParse_cons_cons hfits
    rw [hparse, parseFrom_interface_iff afterT0_st hfits' rfl]
    constructor
    · rintro ⟨ifb, hist, tck, hann, rfl, rfl⟩
      exact ⟨⟨hann, atrBytes_length _ ▸ hfits⟩, rfl⟩
    · rintro ⟨⟨hann, -⟩, hx⟩
      obtain ⟨ts, t0, ifb, hist, tck⟩ := a
      obtain ⟨rfl, hx⟩ := List.cons.inj hx
      obtain ⟨rfl, rfl⟩ := List.cons.inj hx
      exact ⟨ifb, hist, tck, hann, rfl, rfl⟩

end

/-- Settles O23: both functions are tied to `atr_wf` and the bytes of the structure. -/
theorem atrParseAndBuildAreInverse : Obligations.AtrParseAndBuildAreInverse := by
  unfold Obligations.AtrParseAndBuildAreInverse
  intro p
  refine ⟨fun a hwf => ⟨atrBytes a, if_pos hwf, atrParse_eq_complete_iff.mpr ⟨hwf, rfl⟩⟩,
    fun x a hparse => ?_, fun x a n => atrParse_eq_trailing_iff⟩
  obtain ⟨hwf, rfl⟩ := atrParse_eq_complete_iff.mp hparse
  exact ⟨hwf, if_pos hwf⟩

end Sys2Proof.Machine

/-! ## The ATR commit and `ATR_SET` (rules R152, R160) -/

namespace Sys2Proof.Machine

section
variable {t : DiTail} {wi di d : Byte} {fi f : Half}

/-- ProtocolViolation is the last check: the values are valid and the operating ones in excess of the
card's (rule R124). -/
theorem excess_of_protocolViolation (h : calcWt t wi fi di f d = .err .protocolViolation) :
    validF fi = true ∧ validD t di = true ∧ (fi.toNat < f.toNat ∨ di.toNat < d.toNat) := by
  unfold calcWt at h
  split_ifs at h with hwi hF hD hexcess
  · cases h
  · cases h
  · cases h
  · simp only [Bool.or_eq_true, Bool.not_eq_true', not_or, Bool.not_eq_false] at hF hD
    obtain ⟨hfi, -⟩ := hF
    obtain ⟨hdi, -⟩ := hD
    exact ⟨hfi, hdi, hexcess⟩

theorem validD_pos (h : validD t di = true) : 1 ≤ di.toNat := by
  have hne : di ≠ 0 := by simp only [validD, Bool.and_eq_true, bne_iff_ne] at h; exact h.1
  bv_omega

end

/-- Settles O22: the default pair is the least valid one, and dividing by its D of 1 changes nothing. -/
theorem atrCommitNeverViolatesTheProtocol : Obligations.AtrCommitNeverViolatesTheProtocol := by
  unfold Obligations.AtrCommitNeverViolatesTheProtocol
  intro t wi fi di
  refine ⟨fun h => ?_, fun v h => ?_⟩
  · obtain ⟨hF, hD, hexcess⟩ := excess_of_protocolViolation h
    obtain ⟨hmin, -⟩ := validF_range hF
    exact hexcess.elim hmin.not_gt (validD_pos hD).not_gt
  · obtain ⟨-, hv⟩ := calcWt_eq_ok_iff.mp h
    rw [hv, wtProduct, show (1#8 : Byte).toNat = 1 from rfl, Nat.div_one]
    rfl

/-! ### `ATR_SET` (rule R160) -/

section
variable {s : State} {x : List Byte}

theorem setAtr_stores (h : x = [] ∨ ∃ a, atrParse s.params x = .complete a) :
    setAtr x s = { s with atrCfg := x } := by
  unfold setAtr
  split_ifs with hx
  · rw [hx]
  · obtain ⟨a, hparse⟩ := h.resolve_left hx
    rw [hparse]

theorem setAtr_reports (hx : x ≠ []) (hparse : ∀ a, atrParse s.params x ≠ .complete a) :
    setAtr x s = afterError s (.transport .atrSetMalformed) := by
  rw [setAtr, if_neg hx]
  cases h : atrParse s.params x with
  | complete a => exact absurd h (hparse a)
  | trailing | incomplete | overflow => rfl

end

/-- Settles O24: a live slot answers what `setAtr` makes of it. -/
theorem atrSetStoresCompleteAtrs : Obligations.AtrSetStoresCompleteAtrs := by
  unfold Obligations.AtrSetStoresCompleteAtrs
  intro s x hfault
  have hexec : exec (.atrSet x) s = .next (setAtr x s) :=
    whenLive_live s (fun s => .next (setAtr x s)) hfault
  rw [hexec]
  exact ⟨fun h => by rw [setAtr_stores h], fun hx hparse => by rw [setAtr_reports hx hparse]⟩

end Sys2Proof.Machine

/-! ## The bytes of an ATR (rules R142 to R152, R221, R222) -/

namespace Sys2Proof.Machine

section
variable {s : State} {take : AtrRegs → AtrRegs} {b : Byte}

/-! ### Where the buffer is full (rule R142) -/

theorem atrRule_full (hfull : s.atr.buf.length = s.params.atrMax) :
    atrRule take b s = .faulted .atrOverflow := by
  rw [atrRule, if_pos hfull]

/-- A byte for a full buffer ends in the fault, wherever an ATR byte is taken. -/
theorem lineEvent_atr_full {dir : Bool} (hfault : s.fault = none)
    (htop : s.top = .waitAtr ∨ (s.top = .inAtr ∧ s.atr.st ≠ .done))
    (hfull : s.atr.buf.length = s.params.atrMax) :
    lineEvent dir false false false b s = .next { s with fault := some .atrOverflow } := by
  obtain htop | ⟨htop, hst⟩ := htop
  · rw [lineEvent_live hfault (by simp [htop]), linePhase_waitAtr htop]
    exact handLine_faulted s _ _ (atrRule_full (s := { s with top := .inAtr }) hfull)
  · rw [lineEvent_live hfault (by simp [htop]), linePhase_inAtr htop]
    exact handLine_faulted s _ _ (by rw [ruleInAtr_eq_atrRule b hst, atrRule_full hfull])

/-- Every ATR row is a row of the error-free line byte. -/
theorem exec_atrRowOf (st : AtrState) (dir : Bool) (b : Byte) (s : State) :
    exec (atrRowOf st dir b) s = lineEvent dir false false false b s := by
  rw [rowDoesWhatItsEventDoes, (atrRowOf_event_wf st dir b).1]
  rfl

end

/-- Settles O21: the event and the sub-state's row are the same line byte. -/
theorem atrOverflowReplacesTheEvent : Obligations.AtrOverflowReplacesTheEvent := by
  unfold Obligations.AtrOverflowReplacesTheEvent
  intro s dir b hfault htop hfull
  have hfaults := lineEvent_atr_full (b := b) (dir := dir) hfault htop hfull
  exact ⟨hfaults, (exec_atrRowOf s.atr.st dir b s).trans hfaults⟩

section
variable {s : State} {take : AtrRegs → AtrRegs} {b : Byte}

/-! ### Where it is not (rules R144 to R152) -/

theorem rearm_eq_afterByte (t : State) : rearm t = afterByte t [] := by
  simp [rearm, afterByte]

/-- The commit computes WT from what the completed ATR offers (rule R152). -/
theorem committedTiming_eq (s : State) :
    committedTiming s =
      match calcWt s.params.diTail (atrOffer s.timing s.atr).2.2
          (fiOf (atrOffer s.timing s.atr).1)
          (diOf s.params.diTail (atrOffer s.timing s.atr).2.1) 372#16 1#8 with
      | .ok wt => (.ok wt, { s.timing with
          capFi := (atrOffer s.timing s.atr).1, capDi := (atrOffer s.timing s.atr).2.1
          wi := (atrOffer s.timing s.atr).2.2, wt := wt })
      | .err e => (.err e, s.timing) := by
  cases hta1 : s.atr.ta1 <;> cases hwi : s.atr.wi <;>
    simp only [committedTiming, atrOffer, hta1, hwi] <;> rfl

/-- Completion, then the re-arm (rules R151, R152, R233). -/
theorem rearm_atrDone {r : AtrRegs} (hst : r.st = .done) :
    rearm (atrDone { s with atr := r }) = afterAtrByte s r := by
  cases hwt : calcWt s.params.diTail (atrOffer s.timing r).2.2 (fiOf (atrOffer s.timing r).1)
      (diOf s.params.diTail (atrOffer s.timing r).2.1) 372#16 1#8 with
  | ok wt =>
    simp [atrDone_eq, committedTiming_eq, hwt, rearm, afterAtrByte, hst, afterByte]
  | err e =>
    simp [atrDone_eq, committedTiming_eq, hwt, rearm, afterAtrByte, hst, afterByte]

/-- A handed ATR byte, with room for it (rules R142, R151, R233). -/
theorem handLine_atrRule (htop : s.top = .inAtr) (hroom : s.atr.buf.length ≠ s.params.atrMax) :
    handLine (atrRule take b) s
      = .next (afterAtrByte s (take { s.atr with buf := s.atr.buf ++ [b] })) := by
  obtain ⟨hfull, -⟩ | ⟨-, hst, hdone⟩ | ⟨-, hst, hdone⟩ := atrRule_cases s take b _ rfl
  · exact absurd hfull hroom
  · rw [handLine_done s _ _ hdone, if_neg (by simp [htop]), rearm_eq_afterByte, afterAtrByte,
      if_pos hst]
  · have htop' : (atrDone { s with atr := take { s.atr with buf := s.atr.buf ++ [b] } }).top
        ≠ .reset := by simp [atrDone]
    rw [handLine_done s _ _ hdone, if_neg htop', rearm_atrDone hst]

/-- A byte of `InAtr`, with room for it: the row of the sub-state reads it (rule R222). -/
theorem exec_atrRow {dir : Bool} (hfault : s.fault = none) (htop : s.top = .inAtr)
    (hst : s.atr.st ≠ .done) (hroom : s.atr.buf.length ≠ s.params.atrMax) :
    exec (atrRowOf s.atr.st dir b) s
      = .next (afterAtrByte s (readAtrByte s.params.wiTcIndex b s.atr)) := by
  rw [exec_atrRowOf, lineEvent_live hfault (by simp [htop]), linePhase_inAtr htop,
    handLine_congr (ruleInAtr_eq_atrRule b hst), handLine_atrRule htop hroom, readAtrByte]

theorem waitFrom_eq_atrNext (r : AtrRegs) (k0 : Nat) :
    waitFrom r k0 = atrNext r.y k0 r.k r.tckNeeded := by
  unfold waitFrom atrNext
  cases firstPresent r.y k0 <;> rfl

end

/-! ### The registers each byte leaves (rules R144 to R150) -/

section
variable {wiIdx b : Byte} {r : AtrRegs}

theorem readAtrByte_t0 (hst : r.st = .waitT0) :
    readAtrByte wiIdx b r = { r with
      buf := r.buf ++ [b], y := hiNibble b, k := loNibble b, idx := 1
      st := atrNext (hiNibble b) 0 (loNibble b) r.tckNeeded } := by
  simp only [readAtrByte, takeAtrByte, hst, takeT0, waitFrom_eq_atrNext]

theorem readAtrByte_ta (hst : r.st = .waitTA) :
    readAtrByte wiIdx b r = { r with
      buf := r.buf ++ [b], ta1 := if r.idx = 1 then some b else r.ta1
      st := atrNext r.y 1 r.k r.tckNeeded } := by
  simp only [readAtrByte, takeAtrByte, hst, takeTa, afterKind, kindNum, waitFrom_eq_atrNext]

theorem readAtrByte_tb (hst : r.st = .waitTB) :
    readAtrByte wiIdx b r = { r with
      buf := r.buf ++ [b], st := atrNext r.y 2 r.k r.tckNeeded } := by
  simp only [readAtrByte, takeAtrByte, hst, takeTb, afterKind, kindNum, waitFrom_eq_atrNext]

theorem readAtrByte_tc (hst : r.st = .waitTC) :
    readAtrByte wiIdx b r = { r with
      buf := r.buf ++ [b], wi := if r.idx = wiIdx then some b else r.wi
      st := atrNext r.y 3 r.k r.tckNeeded } := by
  simp only [readAtrByte, takeAtrByte, hst, takeTc, afterKind, kindNum, waitFrom_eq_atrNext]

theorem readAtrByte_td (hst : r.st = .waitTD) :
    readAtrByte wiIdx b r = { r with
      buf := r.buf ++ [b], tckNeeded := r.tckNeeded || loNibble b != 0, y := hiNibble b
      idx := r.idx + 1
      st := atrNext (hiNibble b) 0 r.k (r.tckNeeded || loNibble b != 0) } := by
  have hneeded : (if loNibble b ≠ 0 then true else r.tckNeeded)
      = (r.tckNeeded || loNibble b != 0) := by
    by_cases hlo : loNibble b = 0#4 <;> simp [hlo]
  simp only [readAtrByte, takeAtrByte, hst, takeTd, waitFrom_eq_atrNext, hneeded]

theorem readAtrByte_waitHist (hst : r.st = .waitHist) :
    readAtrByte wiIdx b r = { r with
      buf := r.buf ++ [b], k := r.k - 1
      st := if r.k - 1 ≠ 0 then .waitHist
        else if r.tckNeeded = true then .waitTCK else .done } := by
  simp only [readAtrByte, takeAtrByte, hst, takeHist, ite_not]

theorem readAtrByte_tck (hst : r.st = .waitTCK) :
    readAtrByte wiIdx b r = { r with buf := r.buf ++ [b], st := .done } := by
  simp only [readAtrByte, takeAtrByte, hst, takeTck]

end

/-- Settles O19: the row of the sub-state reads the byte, and the sub-state says into which registers. -/
theorem atrBytesAreRead : Obligations.AtrBytesAreRead := by
  unfold Obligations.AtrBytesAreRead
  intro s dir b hfault htop
  refine ⟨fun hfull _ hdone => ?_, fun hroom => ⟨_, rfl, ?_⟩⟩
  · rw [exec_atrRowOf]
    exact lineEvent_atr_full hfault (.inr ⟨htop, hdone⟩) hfull
  have hrow (st : AtrState) (hne : st ≠ .done) (hst : s.atr.st = st) : exec (atrRowOf st dir b) s
      = .next (afterAtrByte s (readAtrByte s.params.wiTcIndex b s.atr)) := by
    subst hst
    exact exec_atrRow hfault htop hne hroom
  exact ⟨fun hst => by rw [← readAtrByte_t0 hst]; exact hrow .waitT0 nofun hst,
    fun hst => by rw [← readAtrByte_ta hst]; exact hrow .waitTA nofun hst,
    fun hst => by rw [← readAtrByte_tb hst]; exact hrow .waitTB nofun hst,
    fun hst => by rw [← readAtrByte_tc hst]; exact hrow .waitTC nofun hst,
    fun hst => by rw [← readAtrByte_td hst]; exact hrow .waitTD nofun hst,
    fun hst => by rw [← readAtrByte_waitHist hst]; exact hrow .waitHist nofun hst,
    fun hst => by rw [← readAtrByte_tck hst]; exact hrow .waitTCK nofun hst⟩

end Sys2Proof.Machine

/-! ## A line byte outside `Reset` completes (rules R210, R211, R233) -/

namespace Sys2Proof.Machine

/-! ### What a byte rule leaves alone -/

/-- From `s` to `t` no fault is recorded or dropped, and `OUTQ` only grows (rules R34, R336). -/
def Appends (s t : State) : Prop := t.fault = s.fault ∧ ∃ out, t.outq = s.outq ++ out

/-- The rule has an effect on `s`, and it is no fault. -/
def Completes (rule : State → Effect) (s : State) : Prop := ∃ u, rule s = .done u ∧ Appends s u

section
variable {s t u : State} {b : Byte}

theorem appends_of_eq (hfault : t.fault = s.fault) (hout : t.outq = s.outq) : Appends s t :=
  ⟨hfault, [], by rw [hout, List.append_nil]⟩

theorem appends_refl (s : State) : Appends s s := appends_of_eq rfl rfl

theorem Appends.trans (hst : Appends s t) (htu : Appends t u) : Appends s u := by
  obtain ⟨hfault, out, hout⟩ := hst
  obtain ⟨hfault', out', hout'⟩ := htu
  exact ⟨hfault'.trans hfault, out ++ out', by rw [hout', hout, List.append_assoc]⟩

theorem appends_emit (r : Record) (s : State) : Appends s (emit r s) := ⟨rfl, [r], rfl⟩

theorem appends_raise (e : ErrInfo) (s : State) : Appends s (raise e s) := ⟨rfl, [.error e], rfl⟩

theorem appends_raiseUnless (ok : Bool) (e : ErrInfo) (s : State) :
    Appends s (if ok = true then s else raise e s) := by
  split_ifs
  · exact appends_refl s
  · exact appends_raise e s

theorem appends_flush (reason : FlushReason) (s : State) : Appends s (flush reason s) := by
  rw [flush_eq]
  exact ⟨rfl, _, rfl⟩

theorem appends_obufAppend (b : Byte) (s : State) : Appends s (obufAppend b s) := by
  rw [obufAppend_eq]
  exact ⟨rfl, _, rfl⟩

theorem appends_atrDone (s : State) : Appends s (atrDone s) := by
  rw [atrDone_eq]
  simp only [List.append_assoc]
  exact ⟨rfl, _, rfl⟩

theorem appends_sendPpsResponse (s : State) : Appends s (sendPpsResponse s) := by
  unfold sendPpsResponse
  split_ifs
  · exact ⟨rfl, _, rfl⟩
  · exact appends_refl s

theorem appends_ppsCommit (p : Byte) (s : State) : Appends s (ppsCommit p s) := by
  simp only [ppsCommit]
  split
  · split
    · exact ⟨rfl, _, List.append_assoc _ _ _⟩
    · exact appends_raise _ s
  · exact appends_raise _ s

/-! ### The rules of each phase complete -/

/-- With room in the buffer an ATR byte is no overflow (rule R142). -/
theorem completes_atrRule {take : AtrRegs → AtrRegs}
    (hroom : s.atr.buf.length ≠ s.params.atrMax) : Completes (atrRule take b) s := by
  obtain ⟨hfull, -⟩ | ⟨-, -, hdone⟩ | ⟨-, -, hdone⟩ := atrRule_cases s take b _ rfl
  · exact absurd hfull hroom
  · exact ⟨_, hdone, appends_refl s⟩
  · exact ⟨_, hdone, appends_atrDone _⟩

theorem completes_ruleWaitApdu : Completes (ruleWaitApdu b) s := by
  unfold Completes ruleWaitApdu
  split_ifs
  · exact ⟨_, rfl, appends_refl s⟩
  · exact ⟨_, rfl, appends_obufAppend b s⟩

/-- A PPS byte finds the PTS0 that decides the next position (rules R181, R184, R185). -/
theorem completes_rulePtsNext {p : PpsPos} {v : Byte} (hpts0 : (phaseBytes s.pps).pts0 = some v) :
    Completes (rulePtsNext p b) s :=
  ⟨{ s with pps := { ppsTake b s.pps with pos := nextPos p v } }, by rw [rulePtsNext, hpts0],
    appends_refl s⟩

theorem completes_rulePckReq : Completes (rulePckReq b) s := by
  have hraise := appends_raiseUnless ((ppsTake b s.pps).xor == 0) (.pckMismatch .req)
    { s with pps := { ppsTake b s.pps with reqOk := (ppsTake b s.pps).xor == 0 } }
  exact ⟨_, rfl, Appends.trans hraise (appends_sendPpsResponse _)⟩

theorem completes_rulePckResp : Completes (rulePckResp b) s := by
  have hraise := appends_raiseUnless ((ppsTake b s.pps).xor == 0) (.pckMismatch .resp)
    { s with pps := ppsTake b s.pps }
  refine ⟨_, rfl, ?_⟩
  generalize (if ((ppsTake b s.pps).xor == 0) = true then _ else raise _ _ : State) = v at hraise ⊢
  have hout (r : Record) : Appends s (emit r (flush .ppsDone v)) :=
    (Appends.trans hraise (appends_flush .ppsDone v)).trans (appends_emit r _)
  split
  · split_ifs
    · exact Appends.trans (hout _) (appends_ppsCommit _ _)
    · exact hout _
  · exact hout _

theorem completes_ruleInPts (h : InExchange s.pps) : Completes (ruleInPts b) s := by
  have hsoFar := h.soFar
  cases hpos : s.pps.pos <;> rw [hpos] at hsoFar <;>
    simp only [Completes, ruleInPts, rulePps, hpos]
  case ptss =>
    cases hphase : s.pps.phase with
    | req => exact absurd hpos (h.req hphase).1
    | resp => exact ⟨_, rfl, appends_refl s⟩
  case pts0 | pts3 => exact ⟨_, rfl, appends_refl s⟩
  case pts1 =>
    obtain ⟨a, v, hbytes, -⟩ := ppsSoFar_pts1.mp hsoFar
    exact completes_rulePtsNext (by rw [hbytes])
  case pts2 =>
    obtain ⟨a, v, p1, hbytes, -⟩ := ppsSoFar_pts2.mp hsoFar
    exact completes_rulePtsNext (by rw [hbytes])
  case pck =>
    cases s.pps.phase with
    | req => exact completes_rulePckReq
    | resp => exact completes_rulePckResp

theorem remaining_of_classified {c : ApduCtx} (h : Classified c) : ∃ n, remaining c = some n := by
  obtain ⟨hcase, -⟩ | ⟨hcase, -⟩ := h
  · exact ⟨c.le.tot - c.le.cur, by rw [remaining, hcase]⟩
  · exact ⟨c.lc.tot - c.lc.cur, by rw [remaining, hcase]⟩

theorem storeByte_of_classified {c : ApduCtx} (h : Classified c) :
    ∃ c', storeByte b c = some c' := by
  obtain ⟨hcase, -⟩ | ⟨hcase, -⟩ := h
  · exact ⟨_, by rw [storeByte, hcase]⟩
  · exact ⟨_, by rw [storeByte, hcase]⟩

/-- A procedure byte of a classified context (rules R257 to R261). -/
theorem completes_ruleProc (h : Classified s.tpdu.ctx) : Completes (ruleProc b) s := by
  obtain ⟨n, hn⟩ := remaining_of_classified h
  unfold Completes ruleProc
  split
  · exact ⟨_, rfl, appends_refl s⟩
  · exact ⟨_, rfl, appends_refl s⟩
  · rw [rulePbAckAll, hn]
    refine ⟨_, rfl, ?_⟩
    split_ifs <;> exact appends_refl s
  · rw [rulePbAckOne, hn]
    refine ⟨_, rfl, ?_⟩
    split_ifs <;> exact appends_refl s
  · cases hpb : s.params.unexpectedPb <;> simp only [rulePbOther, raise_params, hpb] <;>
      exact ⟨_, rfl, appends_raise (.protocolDesync b) s⟩

theorem completes_ruleTpdu (h : InTpdu s.tpdu) : Completes (ruleTpdu b) s := by
  cases hst : s.tpdu.st <;> simp only [Completes, ruleTpdu, hst]
  case idle => exact absurd hst h.started
  case hdrIns | hdrP1 | hdrP2 => exact ⟨_, rfl, appends_refl s⟩
  case hdrP3 =>
    simp only [ruleP3]
    split <;> exact ⟨_, rfl, appends_refl s⟩
  case proc => exact completes_ruleProc (h.body (by simp [hst, inHeader]))
  case data =>
    obtain ⟨c, hc⟩ := storeByte_of_classified (b := b) (h.body (by simp [hst, inHeader]))
    rw [ruleData, hc]
    exact ⟨_, rfl, appends_refl s⟩
  case sw2 => exact ⟨_, rfl, appends_emit _ s⟩

theorem completes_ruleInApdu (h : InTpdu s.tpdu) : Completes (ruleInApdu b) s := by
  obtain ⟨u, hu, happends⟩ := completes_ruleTpdu (b := b) (s := obufAppend b s) (by simpa using h)
  exact ⟨u, hu, (appends_obufAppend b s).trans happends⟩

/-! ### The re-arm -/

/-- `t` is the live slot after a handled byte: `OUTQ` has grown, and the timer is armed with WT as it is
now (rule R233). -/
def HandledByte (s t : State) : Prop :=
  t.fault = none ∧ t.top ≠ .reset ∧ t.timer = ⟨true, t.timing.wt⟩
    ∧ ∃ out, t.outq = s.outq ++ out ++ [.timerSetWtime t.timing.wt, .timerArm]

theorem handLine_handledByte {rule : State → Effect} (hfault : s.fault = none)
    (hready : ∀ u, rule s = .done u → Ready u) (hcompletes : Completes rule s) :
    ∃ t, handLine rule s = .next t ∧ HandledByte s t := by
  obtain ⟨u, hu, hufault, out, hout⟩ := hcompletes
  have htop : u.top ≠ .reset := fun ht => (hready u hu).running (.inl ht)
  refine ⟨rearm u, by rw [handLine_done s rule u hu, if_neg htop], hufault.trans hfault, htop, rfl,
    out, ?_⟩
  rw [rearm_outq, hout]
  rfl

/-- An error-free byte that meets no full buffer is handled by the rule of its phase (rule R210). -/
theorem linePhase_handledByte (hs : Inv s) (hfault : s.fault = none) (htop : s.top ≠ .reset)
    (hroom : s.top ≠ .inAtr ∨ s.atr.buf.length ≠ s.params.atrMax) :
    ∃ t, linePhase b s = .next t ∧ HandledByte s t := by
  obtain ⟨hslot, hline, -⟩ := inv_iff.mp hs
  cases hphase : s.top with
  | reset => exact absurd hphase htop
  | waitAtr =>
    rw [linePhase_waitAtr hphase]
    refine handLine_handledByte hfault (fun _ => ruleWaitAtr_ready hslot hline hphase) ?_
    obtain ⟨hmax, -⟩ := hslot.params
    have hempty : s.atr.buf.length ≠ s.params.atrMax := by
      rw [hline.atr_cleared hphase, AtrRegs.cleared, List.length_nil]
      omega
    exact completes_atrRule (s := { s with top := .inAtr }) hempty
  | inAtr =>
    rw [linePhase_inAtr hphase]
    refine handLine_handledByte hfault (fun _ => ruleInAtr_ready hslot hline hphase) ?_
    have hatr := completes_atrRule (take := takeAtrByte s.params.wiTcIndex b) (b := b)
      (hroom.resolve_left (not_not_intro hphase))
    rwa [Completes, ← ruleInAtr_eq_atrRule b (hline.readingAtr hphase).notDone] at hatr
  | waitApdu =>
    rw [linePhase_waitApdu hphase]
    exact handLine_handledByte hfault (fun _ => ruleWaitApdu_ready hslot hline hphase)
      completes_ruleWaitApdu
  | inApdu =>
    rw [linePhase_inApdu hphase]
    exact handLine_handledByte hfault (fun _ => ruleInApdu_ready hslot hline hphase)
      (completes_ruleInApdu (hline.inTpdu hphase))
  | inPts =>
    rw [linePhase_inPts hphase]
    exact handLine_handledByte hfault (fun _ => ruleInPts_ready hslot hline hphase)
      (completes_ruleInPts (hline.inExchange hphase))

/-- A line byte with an error bit, outside `Reset`, is reported only (rule R211). -/
theorem lineEvent_error (dir : Bool) {pe oe fe : Bool} (hfault : s.fault = none)
    (htop : s.top ≠ .reset) (he : (pe || oe || fe) = true) :
    lineEvent dir pe oe fe b s = .next (afterError s (.framing b pe oe fe)) := by
  rw [lineEvent, whenLive_live s _ hfault, if_neg htop, if_pos he]
  rfl

end

/-- Settles O17: the rule of each phase completes under the invariant and leaves the slot ready for the
re-arm. -/
theorem lineByteCompletes : Obligations.LineByteCompletes := by
  unfold Obligations.LineByteCompletes
  intro s dir pe oe fe b hs hfault htop
  have hfree (he : (pe || oe || fe) = false) :
      exec (.lineByte dir pe oe fe b) s = lineEvent dir false false false b s := by
    obtain ⟨⟨rfl, rfl⟩, rfl⟩ : (pe = false ∧ oe = false) ∧ fe = false := by simpa using he
    rfl
  refine ⟨fun he => lineEvent_error dir hfault htop he, fun he hin hfull => ?_, fun he hroom => ?_⟩
  · obtain ⟨-, hline, -⟩ := inv_iff.mp hs
    rw [hfree he]
    exact lineEvent_atr_full hfault (.inr ⟨hin, (hline.readingAtr hin).notDone⟩) hfull
  · rw [hfree he, lineEvent_live hfault htop]
    exact linePhase_handledByte hs hfault htop hroom

end Sys2Proof.Machine

/-! ## What a PPS exchange does (rules R181 to R192, R223) -/

namespace Sys2Proof.Machine

/-! ### A handed byte, as one update of the slot -/

section
variable {applies : State → Bool} {rule : State → Effect} {dir : Bool} {b : Byte} {s t : State}

/-- Where a row applies, the answer is what its rule leaves and emits, and then the re-arm (rule
R233). -/
theorem lineRow_afterByte {out : List Record} (hfault : s.fault = none) (happlies : applies s = true)
    (htop : t.top ≠ .reset) (hrule : rule s = .done { t with outq := t.outq ++ out }) :
    lineRow applies rule dir b s = .next (afterByte t out) := by
  rw [lineRow_applies s applies rule dir b hfault happlies, handLine_done s rule _ hrule,
    if_neg htop]
  rfl

/-- A rule that emits nothing. -/
theorem lineRow_afterByte_silent (hfault : s.fault = none) (happlies : applies s = true)
    (htop : t.top ≠ .reset) (hrule : rule s = .done t) :
    lineRow applies rule dir b s = .next (afterByte t []) :=
  lineRow_afterByte hfault happlies htop (by rw [hrule, List.append_nil])

/-- A row of either half whose rule writes the PPS registers only. -/
theorem ppsRow_afterByte {p : PpsPos} {r : PpsRegs} (hfault : s.fault = none)
    (htop : s.top = .inPts) (hpos : s.pps.pos = p) (hrule : rule s = .done { s with pps := r }) :
    lineRow (atPps p) rule dir b s = .next (afterByte { s with pps := r } []) :=
  lineRow_afterByte_silent hfault (atPps_iff.mpr ⟨htop, hpos⟩) (by simp [htop]) hrule

end

/-! ### `WaitApdu` (rules R182, R223, R251) -/

/-- CLA joins `OBUF` and starts a TPDU (rules R223, R251). -/
theorem ruleFirstTpdu_eq (b : Byte) (s : State) :
    ruleFirstTpdu b s = .done { s with
      obuf := appendedObuf s.params.obufSize s.obuf b, top := .inApdu
      tpdu := ⟨.hdrIns, 0, { ApduCtx.cleared with hdr := ⟨b, 0, 0, 0, 0⟩ }⟩
      outq := s.outq ++ appendedOut s.params.obufSize s.obuf b } := by
  rw [ruleFirstTpdu, obufAppend_eq, ruleCla]

/-- The request's PTSS opens the exchange and leaves `OBUF` alone (rule R182). -/
theorem rulePtssReq_eq (s : State) :
    rulePtssReq s = { s with
      top := .inPts
      pps := ⟨.req, .pts0, ⟨some 0xFF#8, none, none, none, none, none⟩, .empty, 0xFF#8, false⟩ } := by
  simp [rulePtssReq, ppsClear, ppsTake, putPps, PpsRegs.cleared, PpsBytes.empty]

/-- Rows of one event do the same (log 7). -/
theorem exec_eq_of_event_eq {i j : Instr} (s : State) (h : i.event = j.event) :
    exec i s = exec j s := by
  rw [rowDoesWhatItsEventDoes i, h, ← rowDoesWhatItsEventDoes j]

/-- Settles O25: in `WaitApdu` both rows apply, and the phase row shares its event with each. -/
theorem waitApduEntersPpsOrTpdu : Obligations.WaitApduEntersPpsOrTpdu := by
  unfold Obligations.WaitApduEntersPpsOrTpdu
  intro s dir b hfault htop
  have happlies : atTop .waitApdu s = true := atTop_iff.mpr htop
  refine ⟨?ptss, exec_eq_of_event_eq s rfl, fun hb => ⟨?cla, exec_eq_of_event_eq s rfl⟩⟩
  case ptss =>
    exact lineRow_afterByte_silent (rule := fun s => .done (rulePtssReq s)) hfault happlies nofun
      (congrArg Effect.done (rulePtssReq_eq s))
  case cla =>
    refine lineRow_afterByte (applies := fun s => atTop .waitApdu s && b != 0xFF#8) hfault
      (by simp [happlies, hb]) nofun ?_
    rw [ruleFirstTpdu_eq, List.append_nil]

/-! ### The bytes before a check byte (rules R181, R183 to R186, R190) -/

section
variable {r : PpsRegs} {b : Byte}

theorem ppsTake_req (hphase : r.phase = .req) :
    ppsTake b r = { r with req := putPps r.req r.pos b, xor := r.xor ^^^ b } := by
  simp only [ppsTake, hphase]

theorem ppsTake_resp (hphase : r.phase = .resp) :
    ppsTake b r = { r with resp := putPps r.resp r.pos b, xor := r.xor ^^^ b } := by
  simp only [ppsTake, hphase]

theorem rulePtsNext_of_pts0 {s : State} {p : PpsPos} {v : Byte}
    (hpts0 : (phaseBytes s.pps).pts0 = some v) :
    rulePtsNext p b s = .done { s with pps := { ppsTake b s.pps with pos := nextPos p v } } := by
  rw [rulePtsNext, hpts0]

end

/-- Settles O26: the row of each position runs its rule, which writes the PPS registers only. -/
theorem ppsBytesAreRead : Obligations.PpsBytesAreRead := by
  unfold Obligations.PpsBytesAreRead
  intro s dir b hfault htop
  refine ⟨?pts0, ?pts1, ?pts2, ?pts3, ?ptss⟩
  case pts0 => exact fun hpos => ppsRow_afterByte (rule := rulePts0 b) hfault htop hpos rfl
  case pts1 =>
    exact fun v hv hpos => ppsRow_afterByte (rule := rulePts1 b) hfault htop hpos
      (rulePtsNext_of_pts0 hv)
  case pts2 =>
    exact fun v hv hpos => ppsRow_afterByte (rule := rulePts2 b) hfault htop hpos
      (rulePtsNext_of_pts0 hv)
  case pts3 => exact fun hpos => ppsRow_afterByte (rule := rulePts3 b) hfault htop hpos rfl
  case ptss =>
    intro hphase hpos
    refine lineRow_afterByte_silent (rule := rulePtssResp b) hfault
      (atPpsHalf_iff.mpr ⟨⟨htop, hpos⟩, hphase⟩) (by simp [htop]) ?_
    rw [rulePtssResp, ppsTake_resp hphase, hpos, putPps]

/-! ### The check bytes (rules R187 to R189, R192) -/

/-- What a failed check records in `LAST_ERR` and emits, as one update (rules R192, R330). -/
theorem raiseUnless_eq_update (ok : Prop) [Decidable ok] (e : ErrInfo) (s : State) :
    (if ok then s else raise e s) = { s with
      lastErr := if ok then s.lastErr else some e
      outq := s.outq ++ if ok then [] else [.error e] } := by
  split_ifs
  · rw [List.append_nil]
  · rfl

theorem sendPpsResponse_eq_update (s : State) :
    sendPpsResponse s = { s with outq := s.outq ++ if s.mode = .cardEmu then
      (ppsResponse s.params.ppsResponse (presentBytes s.pps.req)).map .sendByte else [] } := by
  unfold sendPpsResponse
  split_ifs
  · rfl
  · rw [List.append_nil]

section
variable {s : State} {b : Byte}

/-- The request's check byte as one update (rules R187, R189, R192). -/
theorem rulePckReq_eq (hphase : s.pps.phase = .req) (hpos : s.pps.pos = .pck) :
    rulePckReq b s = .done { s with
      pps := ⟨.resp, .ptss, { s.pps.req with pck := some b }, s.pps.resp, 0, s.pps.xor ^^^ b == 0⟩
      lastErr := if s.pps.xor ^^^ b = 0 then s.lastErr else some (.pckMismatch .req)
      outq := s.outq ++ ((if s.pps.xor ^^^ b = 0 then [] else [.error (.pckMismatch .req)])
        ++ if s.mode = .cardEmu then
          (ppsResponse s.params.ppsResponse (presentBytes { s.pps.req with pck := some b })).map
            .sendByte
        else []) } := by
  simp only [rulePckReq, ppsTake_req hphase, hpos, putPps, raiseUnless_eq_update,
    sendPpsResponse_eq_update, beq_iff_eq, List.append_assoc]

end

/-- Settles O27: the row applies, and its rule is one update of the slot. -/
theorem ppsRequestEnds : Obligations.PpsRequestEnds := by
  unfold Obligations.PpsRequestEnds
  intro s dir b hfault htop hphase hpos
  exact ⟨_, rfl, lineRow_afterByte (rule := rulePckReq b) hfault
    (atPpsHalf_iff.mpr ⟨⟨htop, hpos⟩, hphase⟩) (by simp [htop]) (rulePckReq_eq hphase hpos)⟩

section
variable {s : State} {b : Byte}

/-- The slot when the exchange is over, but for the timing and what has been reported: back in
`WaitApdu` with nothing buffered (rule R188). -/
def exchangeEnded (s : State) : State := { s with obuf := [], top := .waitApdu, pps := .cleared }

/-- What the end of the exchange emits before its timing: the flushed bytes and the `Pps` record, the
response's check byte `b` included (rule R188). -/
def exchangeRecords (b : Byte) (s : State) : List Record :=
  flushed .ppsDone s.obuf
    ++ [.pps (presentBytes s.pps.req) (presentBytes { s.pps.resp with pck := some b })]

/-- The slot handed to the commit: the check byte is read and the records are out, the phase and the
PPS registers are still the exchange's (rule R188). -/
def beforeCommit (b : Byte) (s : State) : State :=
  { s with
    pps := { s.pps with resp := { s.pps.resp with pck := some b }, xor := s.pps.xor ^^^ b }
    obuf := [], outq := s.outq ++ exchangeRecords b s }

/-- Where nothing is negotiated, the response's check byte ends the exchange with the timing as it was,
a failed check reported first (rules R188, R192). -/
theorem rulePckResp_keepsTiming (hphase : s.pps.phase = .resp) (hpos : s.pps.pos = .pck)
    (hkeep : s.pps.xor ^^^ b ≠ 0 ∨ s.pps.reqOk = false ∨ s.pps.resp.pts1 = none) :
    rulePckResp b s = .done { exchangeEnded s with
      lastErr := if s.pps.xor ^^^ b = 0 then s.lastErr else some (.pckMismatch .resp)
      outq := s.outq ++ ((if s.pps.xor ^^^ b = 0 then [] else [.error (.pckMismatch .resp)])
        ++ exchangeRecords b s) } := by
  have hskip (p : Byte) (hp : s.pps.resp.pts1 = some p) :
      (s.pps.reqOk && s.pps.xor ^^^ b == 0) = false := by
    obtain hbad | hreq | hpts1 := hkeep
    · rw [beq_eq_false_iff_ne.mpr hbad, Bool.and_false]
    · rw [hreq, Bool.false_and]
    · rw [hpts1] at hp
      cases hp
  simp only [rulePckResp, ppsTake_resp hphase, hpos, putPps, raiseUnless_eq_update, flush_eq, emit,
    beq_iff_eq, exchangeEnded, exchangeRecords, ppsClear]
  cases hp : s.pps.resp.pts1 with
  | none => simp only [List.append_assoc]
  | some p => simp only [hskip p hp, Bool.false_eq_true, if_false, List.append_assoc]

/-- Where both checks are good and PTS1 is answered, the timing is put to `calculate_wt` (rule R188). -/
theorem rulePckResp_commits {p : Byte} (hphase : s.pps.phase = .resp) (hpos : s.pps.pos = .pck)
    (hxor : s.pps.xor ^^^ b = 0) (hreq : s.pps.reqOk = true) (hpts1 : s.pps.resp.pts1 = some p) :
    rulePckResp b s
      = .done (ppsClear { ppsCommit p (beforeCommit b s) with top := .waitApdu }) := by
  simp only [rulePckResp, ppsTake_resp hphase, hpos, putPps, hxor, hreq, hpts1, beforeCommit,
    exchangeRecords, flush_eq, emit, beq_self_eq_true, Bool.and_self, if_true, List.append_assoc]

end

theorem ne_zero_of_validF {f : Half} (h : validF f = true) : f ≠ 0 := by
  rw [validF_eq_decide, decide_eq_true_iff] at h
  exact h.1

theorem ne_zero_of_validD {t : DiTail} {d : Byte} (h : validD t d = true) : d ≠ 0 := by
  rw [validD_eq_decide, decide_eq_true_iff] at h
  exact h.1

/-- `calculate_wt` has checked both table entries, so the ratio exists (rule R188). -/
theorem fidiToRatio_of_calcWt_ok {t : DiTail} {wi di p : Byte} {fi : Half} {wt : Word}
    (hwt : calcWt t wi fi di (fiOf (hiNibble p)) (diOf t (loNibble p)) = .ok wt) :
    ∃ r, fidiToRatio t p = .ok r := by
  have hchecks := wtChecks_of_calcWt_ok hwt
  exact ⟨_, fidiToRatio_of_ne_zero (ne_zero_of_validF hchecks.opF) (ne_zero_of_validD hchecks.opD)⟩

section
variable {s : State} {p : Byte}

/-- What `calculate_wt` says of the pair in the response's PTS1 `p` (rules R124, R188). -/
def negotiatedWt (p : Byte) (s : State) : TimingResult :=
  calcWt s.params.diTail s.timing.wi (fiOf s.timing.capFi) (diOf s.params.diTail s.timing.capDi)
    (fiOf (hiNibble p)) (diOf s.params.diTail (loNibble p))

/-- An accepted pair is written and announced (rule R188). -/
theorem ppsCommit_of_ok {wt r : Word} (hwt : negotiatedWt p s = .ok wt)
    (hratio : fidiToRatio s.params.diTail p = .ok r) :
    ppsCommit p s = { s with
      timing := { s.timing with
        opFi := hiNibble p, opDi := loNibble p, wt := wt, fidiRatio := r }
      outq := s.outq ++ [.uartSetFidi r, .fidi p r] } := by
  unfold negotiatedWt at hwt
  simp only [ppsCommit, hwt, hratio, emit, List.append_assoc, List.cons_append, List.nil_append]

/-- A refused pair is reported and no timing changes (rule R188). -/
theorem ppsCommit_of_err {e : TimingErr} (hwt : negotiatedWt p s = .err e) :
    ppsCommit p s = raise (.timing e .pps) s := by
  unfold negotiatedWt at hwt
  simp only [ppsCommit, hwt]

end

/-- Settles O28: the rule keeps the timing, or commits it as `calculate_wt` says. -/
theorem ppsResponseCommits : Obligations.PpsResponseCommits := by
  unfold Obligations.PpsResponseCommits
  intro s dir b hfault htop hphase hpos
  have hrow {t : State} {out : List Record} (ht : t.top ≠ .reset)
      (hrule : rulePckResp b s = .done { t with outq := t.outq ++ out }) :
      exec (.ppsPckResp dir b) s = .next (afterByte t out) :=
    lineRow_afterByte hfault (atPpsHalf_iff.mpr ⟨⟨htop, hpos⟩, hphase⟩) ht hrule
  refine ⟨exchangeEnded s, exchangeRecords b s, rfl, rfl, fun hbad => ?mismatch,
    fun hgood hnone => ?unchanged, fun p hgood hreq hpts1 => ⟨fun wt hwt => ?ok, fun e hwt => ?err⟩⟩
  case mismatch =>
    refine hrow nofun ?_
    rw [rulePckResp_keepsTiming hphase hpos (.inl hbad), if_neg hbad, if_neg hbad]
    rfl
  case unchanged =>
    refine hrow nofun ?_
    rw [rulePckResp_keepsTiming hphase hpos (.inr hnone), if_pos hgood, if_pos hgood]
    rfl
  case ok =>
    obtain ⟨r, hratio⟩ := fidiToRatio_of_calcWt_ok hwt
    refine ⟨r, hratio, hrow nofun ?_⟩
    rw [rulePckResp_commits hphase hpos hgood hreq hpts1,
      ppsCommit_of_ok (s := beforeCommit b s) hwt hratio, ← List.append_assoc]
    rfl
  case err =>
    refine hrow nofun ?_
    rw [rulePckResp_commits hphase hpos hgood hreq hpts1,
      ppsCommit_of_err (s := beforeCommit b s) hwt, ← List.append_assoc]
    rfl

/-! ### The operating pair never exceeds the card's (rules R25, R124, R188) -/

/-- Settles O30: a step keeps the invariant, and there WT is a success of `calculate_wt`, which has
made the checks. -/
theorem negotiationNeverExceedsCapability : Obligations.NegotiationNeverExceedsCapability := by
  unfold Obligations.NegotiationNeverExceedsCapability
  intro i s t hs h
  obtain ⟨-, hline, -⟩ := inv_iff.mp (exec_keeps_inv hs h)
  obtain ⟨hwt, -⟩ := timingInv_iff.mp hline.timing
  have hchecks := wtChecks_of_calcWt_ok hwt
  exact ⟨ne_zero_of_validF hchecks.opF, ne_zero_of_validD hchecks.opD, hchecks.leF, hchecks.leD⟩

end Sys2Proof.Machine

/-! ## Every event completes under the invariant (rules R61, R222, R224, R225, R264, R295) -/

namespace Sys2Proof.Machine

/-- The event answers a next state on `s`. -/
def Answers (k : State → Answer) (s : State) : Prop := ∃ t, k s = .next t

section
variable {s : State}

/-- A faulted slot answers itself, so only a live one is a matter of the event (rule R336). -/
theorem answers_whenLive {k : State → Answer} (h : s.fault = none → Answers k s) :
    Answers (whenLive k) s := by
  by_cases hfault : s.fault = none
  · rw [Answers, whenLive_live s k hfault]
    exact h hfault
  · exact ⟨s, whenLive_stuck s k hfault⟩

/-! ### Line bytes and WT expiries -/

theorem answers_lineEvent {dir pe oe fe : Bool} {b : Byte} (hs : Inv s) :
    Answers (lineEvent dir pe oe fe b) s := by
  by_cases hfault : s.fault = none
  · by_cases htop : s.top = .reset
    · exact ⟨s, by rw [lineEvent, whenLive_live s _ hfault, if_pos htop]⟩
    obtain ⟨herror, hfull, hroom⟩ := lineByteCompletes s dir pe oe fe b hs hfault htop
    cases hbits : pe || oe || fe with
    | true => exact ⟨_, herror hbits⟩
    | false =>
      by_cases hmeets : s.top = .inAtr ∧ s.atr.buf.length = s.params.atrMax
      · obtain ⟨hin, hmax⟩ := hmeets
        exact ⟨_, hfull hbits hin hmax⟩
      · obtain ⟨t, ht, -⟩ := hroom hbits (not_and_or.mp hmeets)
        exact ⟨t, ht⟩
  · exact ⟨s, whenLive_stuck s _ hfault⟩

/-- An expiry rule that is done with the disarmed timer completes the event (rule R225). -/
theorem handExpiry_done {rule : State → Effect} {t : State}
    (h : rule { s with timer := { s.timer with armed := false } } = .done t) :
    handExpiry rule s = .next t := by
  rw [handExpiry, h, settle]

/-- Outside `Reset` every expiry rule is done (rules R226 to R230). -/
theorem answers_expiryPhase (htop : s.top ≠ .reset) : Answers expiryPhase s := by
  unfold Answers
  cases hphase : s.top <;> simp only [expiryPhase, hphase]
  case reset => exact absurd hphase htop
  case waitAtr | waitApdu | inApdu | inPts => exact ⟨_, handExpiry_done rfl⟩
  case inAtr =>
    cases hwt : s.params.wtInAtr <;>
      exact ⟨_, handExpiry_done (by simp only [expiryInAtr, hwt]; rfl)⟩

theorem answers_expiryEvent (hs : Inv s) : Answers expiryEvent s := by
  obtain ⟨-, -, htimer⟩ := inv_iff.mp hs
  refine answers_whenLive fun _ => ?_
  by_cases harmed : s.timer.armed = true
  · have htop : s.top ≠ .reset := fun ht =>
      absurd ((htimer.2 (.inl ht)).symm.trans harmed) (by decide)
    simp only [Answers, if_pos harmed]
    exact answers_expiryPhase htop
  · exact ⟨s, if_neg harmed⟩

/-- No event of the line side is without an answer. -/
theorem LineSide.answers {k : State → Answer} (hk : LineSide k) (hs : Inv s) : Answers k s := by
  cases hk with
  | lineByte => exact answers_lineEvent hs
  | wtExpiry => exact answers_expiryEvent hs
  | signal | cardInsert | atrSet | query | reserved => exact answers_whenLive fun _ => ⟨_, rfl⟩

/-! ### Bridge events -/

/-- There is a command APDU for every classified context (rule R296). -/
theorem capdu_of_classified {c : ApduCtx} (ext : Bool) (hc : c.apduCase ≠ .unclassified) :
    ∃ x, capdu c ext = some x := by
  cases h : c.apduCase with
  | unclassified => exact absurd h hc
  | case1 | case2 | case3 | case4 => exact ⟨_, by simp only [capdu, h]; rfl⟩

/-- The dispatch of a classified context is done (rule R295). -/
theorem bridgeDispatch_done (hc : s.bridge.ctx.apduCase ≠ .unclassified) :
    ∃ t, bridgeDispatch s = .done t := by
  obtain ⟨x, hx⟩ := capdu_of_classified s.bridge.ext hc
  obtain ⟨-, h⟩ | ⟨-, -, ⟨hnone, -⟩ | ⟨y, -, h⟩⟩ | ⟨-, -, ⟨_, _, -, -, h⟩ | ⟨-, h⟩⟩ :=
    bridgeDispatch_cases s _ rfl
  · exact ⟨_, h⟩
  · rw [hx] at hnone
    cases hnone
  · exact ⟨_, h⟩
  · exact ⟨_, h⟩
  · exact ⟨_, h⟩

theorem segNew_done (seg : List Byte) : ∃ t, segNew seg s = .done t := by
  unfold segNew
  split
  next => exact ⟨_, rfl⟩
  next => exact ⟨_, rfl⟩
  next => exact ⟨_, rfl⟩
  next r hr => exact bridgeDispatch_done (classifyCase_fits hr).classified

/-- A segment that is owed data belongs to a classified context (rule R294). -/
theorem segCont_done (seg : List Byte) (hb : bridgeInv s.bridge) :
    ∃ t, segCont seg s = .done t := by
  obtain ⟨-, -, hclass, -⟩ := hb
  unfold segCont
  split_ifs with howed
  · exact ⟨_, rfl⟩
  · obtain ⟨hvalid, -⟩ : s.bridge.valid = true ∧ _ := by simpa [contOwed, and_assoc] using howed
    exact bridgeDispatch_done (s := { s with bridge := { s.bridge with
      ctx := contCtx seg s.bridge.ctx } }) (hclass hvalid)

/-- An answer that is expected belongs to a classified context (rule R297). -/
theorem cardAnswer_done (r : List Byte) (hb : bridgeInv s.bridge) :
    ∃ t, cardAnswer r s = .done t := by
  obtain ⟨-, -, hclass, -⟩ := hb
  unfold cardAnswer
  simp only
  split_ifs with hshort hunexpected
  · exact ⟨_, rfl⟩
  · exact ⟨_, rfl⟩
  · obtain ⟨⟨hvalid, -⟩, -⟩ :
        (s.bridge.valid = true ∧ s.bridge.forwarded = true) ∧ s.bridge.ctx.sw0 = none := by
      simpa [Classical.not_imp] using hunexpected
    exact bridgeDispatch_done (s := { s with bridge := { s.bridge with
      ctx := respCtx r s.bridge.ctx } }) (hclass hvalid)

theorem BridgeRule.done {rule : State → Effect} (hrule : BridgeRule rule)
    (hb : bridgeInv s.bridge) : ∃ t, rule s = .done t := by
  cases hrule with
  | segNew seg => exact segNew_done seg
  | segCont seg => exact segCont_done seg hb
  | cardResp r => exact cardAnswer_done r hb
  | statusIn f => exact ⟨_, rfl⟩

/-- No bridge event is without an answer: the bridge is stopped, or the rule is done. -/
theorem BridgeRule.answers {rule : State → Effect} (hrule : BridgeRule rule)
    (hb : bridgeInv s.bridge) : Answers (bridgeEvent rule) s := by
  by_cases hstop : s.fault ≠ none ∨ s.bridge.fatal = true
  · exact ⟨s, whenBridgeLive_stopped s _ hstop⟩
  · obtain ⟨hfault, hfatal⟩ : s.fault = none ∧ s.bridge.fatal = false := by simpa using hstop
    obtain ⟨t, ht⟩ := hrule.done hb
    exact ⟨t, by rw [bridgeEvent, whenBridgeLive_live s _ hfault hfatal, ht, settle]⟩

end

/-- Settles O11: an event of the line side answers, and a bridge event does. -/
theorem everyEventCompletesUnderTheInvariant :
    Obligations.EveryEventCompletesUnderTheInvariant := by
  unfold Obligations.EveryEventCompletesUnderTheInvariant
  intro i s hs
  cases hi : ofBridge i with
  | false => exact (lineSide_exec hi).answers hs
  | true =>
    obtain ⟨rule, hrule, hexec⟩ := bridgeRule_exec hi
    rw [hexec]
    exact hrule.answers hs.bridgeInv

end Sys2Proof.Machine

/-! ## What the byte rules of `InPts` and `InApdu` write, in every state (rules R220, R224) -/

namespace Sys2Proof.Machine

section
variable {s u : State} {b : Byte}

/-! ### `InPts` -/

/-- The exchange goes on: only the PPS registers, `LAST_ERR` and `OUTQ` are written. -/
def PpsGoesOn (s u : State) : Prop :=
  ∃ r out err, u = { s with pps := r, outq := out, lastErr := err }

/-- The exchange is over: `WaitApdu` with nothing buffered, and perhaps a new timing. -/
def PpsEnds (s u : State) : Prop :=
  ∃ r out err, u = { s with
    top := .waitApdu, pps := .cleared, obuf := [], timing := r, outq := out, lastErr := err }

theorem PpsGoesOn.of_regs (r : PpsRegs) : PpsGoesOn s { s with pps := r } :=
  ⟨r, s.outq, s.lastErr, rfl⟩

/-- A byte in `InPts` goes on with the exchange, or is the response's PCK and ends it (rule
R224). -/
theorem ruleInPts_done (hu : ruleInPts b s = .done u) :
    PpsGoesOn s u ∨ (s.pps.phase = .resp ∧ s.pps.pos = .pck ∧ PpsEnds s u) := by
  cases hpos : s.pps.pos <;> simp only [ruleInPts, rulePps, hpos] at hu
  case pts0 | pts3 =>
    obtain rfl := Effect.done.inj hu
    exact .inl (.of_regs _)
  case pts1 | pts2 =>
    obtain ⟨v, -, rfl⟩ := rulePtsNext_done hu
    exact .inl (.of_regs _)
  case ptss =>
    cases hphase : s.pps.phase <;> simp only [hphase] at hu
    · cases hu
    · obtain rfl := Effect.done.inj hu
      exact .inl (.of_regs _)
  case pck =>
    cases hphase : s.pps.phase <;> simp only [hphase] at hu
    · obtain ⟨out, err, rfl⟩ := rulePckReq_done hu
      exact .inl ⟨_, out, err, rfl⟩
    · obtain ⟨r, out, err, rfl, -⟩ := rulePckResp_done hu
      exact .inr ⟨rfl, rfl, r, out, err, rfl⟩

/-! ### `InApdu` -/

/-- A TPDU rule writes the TPDU registers, `LAST_ERR` and the end of `OUTQ`, and leaves the phase
or, with SW2, goes to `WaitApdu`. -/
def TpduWrites (s u : State) : Prop :=
  ∃ top r out err, u = { s with top := top, tpdu := r, outq := s.outq ++ out, lastErr := err }
    ∧ (top = s.top ∨ (top = .waitApdu ∧ s.tpdu.st = .sw2))

theorem TpduWrites.of_regs (r : TpduRegs) : TpduWrites s { s with tpdu := r } :=
  ⟨s.top, r, [], s.lastErr, by rw [List.append_nil], .inl rfl⟩

theorem TpduWrites.refl (s : State) : TpduWrites s s := .of_regs s.tpdu

theorem ruleP3_writes (hu : ruleP3 b s = .done u) : TpduWrites s u := by
  unfold ruleP3 at hu
  simp only at hu
  split at hu
  · obtain rfl := Effect.done.inj hu
    exact .of_regs _
  · obtain rfl := Effect.done.inj hu
    exact .of_regs _

/-- A burst is granted, or nothing remains (rules R259, R260). -/
theorem tpduWrites_ack (n m : Word) : TpduWrites s (if n = 0 then s else grant m s) := by
  split_ifs
  · exact .refl s
  · exact .of_regs _

/-- A procedure byte (rules R257 to R261). -/
theorem ruleProc_writes (hu : ruleProc b s = .done u) : TpduWrites s u := by
  unfold ruleProc at hu
  split at hu
  next =>
    obtain rfl := Effect.done.inj hu
    exact .refl s
  next =>
    obtain rfl := Effect.done.inj hu
    exact .of_regs _
  next =>
    unfold rulePbAckAll at hu
    split at hu
    · cases hu
    · obtain rfl := Effect.done.inj hu
      exact tpduWrites_ack _ _
  next =>
    unfold rulePbAckOne at hu
    split at hu
    · cases hu
    · obtain rfl := Effect.done.inj hu
      exact tpduWrites_ack _ _
  next =>
    cases hpb : s.params.unexpectedPb <;> simp only [rulePbOther, raise_params, hpb] at hu <;>
      obtain rfl := Effect.done.inj hu <;>
      exact ⟨s.top, _, [.error (.protocolDesync b)], some (.protocolDesync b), rfl, .inl rfl⟩

/-- A byte of a TPDU (rules R252 to R263). -/
theorem ruleTpdu_writes (hu : ruleTpdu b s = .done u) : TpduWrites s u := by
  cases hst : s.tpdu.st <;> simp only [ruleTpdu, hst] at hu
  case idle => cases hu
  case hdrIns | hdrP1 | hdrP2 =>
    obtain rfl := Effect.done.inj hu
    exact .of_regs _
  case hdrP3 => exact ruleP3_writes hu
  case proc => exact ruleProc_writes hu
  case data =>
    unfold ruleData at hu
    split at hu
    · cases hu
    · obtain rfl := Effect.done.inj hu
      exact .of_regs _
  case sw2 =>
    obtain rfl := Effect.done.inj hu
    exact ⟨.waitApdu, _, _, s.lastErr, rfl, .inr ⟨rfl, hst⟩⟩

end

end Sys2Proof.Machine

/-! ## The transition table of `TOP` (rule R234) -/

namespace Sys2Proof.Machine

section
variable {s t : State} {b : Byte}

/-! ### Line bytes -/

/-- The rows of an error-free line byte `b` (rule R234). -/
def ByteTransition (b : Byte) (s t : State) : Prop :=
  (s.top = .waitAtr ∧ t.top = .inAtr)
    ∨ (s.top = .inAtr ∧ t.top = .waitApdu ∧ t.atr.st = .done)
    ∨ (s.top = .waitApdu ∧ t.top = .inPts ∧ b = 0xFF#8)
    ∨ (s.top = .waitApdu ∧ t.top = .inApdu ∧ b ≠ 0xFF#8)
    ∨ (s.top = .inApdu ∧ t.top = .waitApdu ∧ s.tpdu.st = .sw2)
    ∨ (s.top = .inPts ∧ t.top = .waitApdu ∧ s.pps.phase = .resp ∧ s.pps.pos = .pck)

/-- A rule's row: the phase it leaves is the old one or one the table has for the byte. -/
def RuleFollowsTable (rule : State → Effect) (b : Byte) (s : State) : Prop :=
  ∀ u, rule s = .done u → u.top = s.top ∨ ByteTransition b s u

/-- The re-arm after a rule is no matter of the table. -/
theorem handLine_followsTable {rule : State → Effect} (hrule : RuleFollowsTable rule b s)
    (h : handLine rule s = .next t) : t.top = s.top ∨ ByteTransition b s t := by
  obtain ⟨u, hu, rfl⟩ | ⟨f, -, rfl⟩ := handLine_next s rule t h
  · have hrow := hrule u hu
    split_ifs
    · exact hrow
    · exact hrow
  · exact .inl rfl

theorem ruleWaitAtr_followsTable (htop : s.top = .waitAtr) :
    RuleFollowsTable (ruleWaitAtr b) b s := by
  intro u hu
  obtain ⟨-, h⟩ | ⟨-, -, h⟩ | ⟨-, hst, -⟩ := atrRule_cases { s with top := .inAtr } takeTs b _ hu
  · cases h
  · obtain rfl := Effect.done.inj h
    exact .inr (.inl ⟨htop, rfl⟩)
  · cases hst

theorem ruleInAtr_followsTable (htop : s.top = .inAtr) : RuleFollowsTable (ruleInAtr b) b s := by
  intro u hu
  by_cases hdone : s.atr.st = .done
  · rw [ruleInAtr, hdone] at hu
    cases hu
  rw [ruleInAtr_eq_atrRule b hdone] at hu
  obtain ⟨-, h⟩ | ⟨-, -, h⟩ | ⟨-, hst, h⟩ := atrRule_cases s _ b _ hu
  · cases h
  · obtain rfl := Effect.done.inj h
    exact .inl rfl
  · obtain rfl := Effect.done.inj h
    rw [atrDone_eq]
    exact .inr (.inr (.inl ⟨htop, rfl, hst⟩))

theorem ruleWaitApdu_followsTable (htop : s.top = .waitApdu) :
    RuleFollowsTable (ruleWaitApdu b) b s := by
  intro u hu
  unfold ruleWaitApdu at hu
  split_ifs at hu with hb
  · obtain rfl := Effect.done.inj hu
    exact .inr (.inr (.inr (.inl ⟨htop, rfl, hb⟩)))
  · obtain rfl := Effect.done.inj hu
    exact .inr (.inr (.inr (.inr (.inl ⟨htop, rfl, hb⟩))))

theorem ruleInApdu_followsTable (htop : s.top = .inApdu) :
    RuleFollowsTable (ruleInApdu b) b s := by
  intro u hu
  obtain ⟨top, r, out, err, rfl, hkeep | ⟨rfl, hst⟩⟩ := ruleTpdu_writes hu
  · rw [obufAppend_eq] at hkeep
    exact .inl hkeep
  · rw [obufAppend_tpdu] at hst
    exact .inr (.inr (.inr (.inr (.inr (.inl ⟨htop, rfl, hst⟩)))))

theorem ruleInPts_followsTable (htop : s.top = .inPts) : RuleFollowsTable (ruleInPts b) b s := by
  intro u hu
  obtain ⟨r, out, err, rfl⟩ | ⟨hphase, hpos, r, out, err, rfl⟩ := ruleInPts_done hu
  · exact .inl rfl
  · exact .inr (.inr (.inr (.inr (.inr (.inr ⟨htop, rfl, hphase, hpos⟩)))))

theorem linePhase_followsTable (h : linePhase b s = .next t) :
    t.top = s.top ∨ ByteTransition b s t := by
  cases htop : s.top <;> simp only [linePhase, htop] at h <;> rw [← htop]
  case reset =>
    cases h
    exact .inl rfl
  case waitAtr => exact handLine_followsTable (ruleWaitAtr_followsTable htop) h
  case inAtr => exact handLine_followsTable (ruleInAtr_followsTable htop) h
  case waitApdu => exact handLine_followsTable (ruleWaitApdu_followsTable htop) h
  case inApdu => exact handLine_followsTable (ruleInApdu_followsTable htop) h
  case inPts => exact handLine_followsTable (ruleInPts_followsTable htop) h

/-- A line byte changes `TOP` by the table, and only an error-free one does (rules R210, R211). -/
theorem lineEvent_followsTable {dir pe oe fe : Bool} (h : lineEvent dir pe oe fe b s = .next t)
    (hne : t.top ≠ s.top) :
    (pe = false ∧ oe = false ∧ fe = false) ∧ ByteTransition b s t := by
  obtain rfl | ⟨-, h⟩ := whenLive_next h
  · exact absurd rfl hne
  split_ifs at h with htop hbits
  · cases h
    exact absurd rfl hne
  · cases h
    exact absurd rfl hne
  · exact ⟨by simpa [and_assoc] using hbits, (linePhase_followsTable h).resolve_left hne⟩

/-! ### WT expiries -/

@[simp] theorem enterReset_top (s : State) : (enterReset s).top = .reset := by
  rw [enterReset_eq, inReset_top]

@[simp] theorem enterWaitAtr_top (s : State) : (enterWaitAtr s).top = .waitAtr := by
  rw [enterWaitAtr_eq, inWaitAtr_top]

@[simp] theorem flush_top (reason : FlushReason) (s : State) : (flush reason s).top = s.top := by
  rw [flush_eq]

/-- The rows of an admitted WT expiry (rule R234). -/
def ExpiryTransition (s t : State) : Prop :=
  (s.top = .inAtr ∧ t.top = .waitAtr ∧ s.params.wtInAtr = .abortToWaitAtr)
    ∨ (s.top = .inApdu ∧ t.top = .waitApdu)
    ∨ (s.top = .inPts ∧ t.top = .waitApdu)

/-- Disarming the timer is no matter of the table. -/
theorem handExpiry_followsTable {rule : State → Effect}
    (hrule : ∀ u v, u.top = s.top → u.params = s.params → rule u = .done v →
      v.top = s.top ∨ ExpiryTransition s v)
    (h : handExpiry rule s = .next t) : t.top = s.top ∨ ExpiryTransition s t := by
  obtain hdone | ⟨f, -, rfl⟩ := handExpiry_next s rule t h
  · exact hrule { s with timer := { s.timer with armed := false } } t rfl rfl hdone
  · exact .inl rfl

theorem expiryPhase_followsTable (h : expiryPhase s = .next t) :
    t.top = s.top ∨ ExpiryTransition s t := by
  cases htop : s.top <;> simp only [expiryPhase, htop] at h <;> rw [← htop]
  case reset => cases h
  case waitAtr =>
    refine handExpiry_followsTable (fun u v hu _ hv => ?_) h
    obtain rfl := Effect.done.inj hv
    exact .inl hu
  case inAtr =>
    refine handExpiry_followsTable (fun u v hu hp hv => ?_) h
    unfold expiryInAtr at hv
    split at hv <;> obtain rfl := Effect.done.inj hv
    · exact .inl hu
    next hwt => exact .inr (.inl ⟨htop, enterWaitAtr_top u, hp ▸ hwt⟩)
  case waitApdu =>
    refine handExpiry_followsTable (fun u v hu _ hv => ?_) h
    obtain rfl := Effect.done.inj hv
    exact .inl ((flush_top _ u).trans hu)
  case inApdu =>
    refine handExpiry_followsTable (fun u v _ _ hv => ?_) h
    obtain rfl := Effect.done.inj hv
    exact .inr (.inr (.inl ⟨htop, rfl⟩))
  case inPts =>
    refine handExpiry_followsTable (fun u v _ _ hv => ?_) h
    obtain rfl := Effect.done.inj hv
    exact .inr (.inr (.inr ⟨htop, flush_top _ _⟩))

/-- A WT expiry changes `TOP` by the table, and only with the timer armed (rule R225). -/
theorem expiryEvent_followsTable (h : expiryEvent s = .next t) (hne : t.top ≠ s.top) :
    s.timer.armed = true ∧ ExpiryTransition s t := by
  obtain rfl | ⟨-, h⟩ := whenLive_next h
  · exact absurd rfl hne
  split_ifs at h with harmed
  · exact ⟨harmed, (expiryPhase_followsTable h).resolve_left hne⟩
  · cases h
    exact absurd rfl hne

/-! ### Signals -/

/-- `Reset` is entered from another phase, or `TOP` is as it was (rules R215, R217). -/
theorem fallToReset_top (s : State) :
    (fallToReset s).top = s.top ∨ (s.top ≠ .reset ∧ (fallToReset s).top = .reset) := by
  unfold fallToReset
  split_ifs with htop
  · exact .inl rfl
  · exact .inr ⟨htop, enterReset_top s⟩

/-- `WaitAtr` is entered from `Reset`, or `TOP` is as it was (rule R216). -/
theorem releaseReset_top (wasReset : Bool) (s : State) :
    (releaseReset wasReset s).top = s.top
      ∨ (wasReset = true ∧ s.top = .reset ∧ (releaseReset wasReset s).top = .waitAtr) := by
  unfold releaseReset
  split_ifs with h
  · exact .inr ⟨h.1, h.2, enterWaitAtr_top s⟩
  · exact .inl rfl

/-- The rows of a signal with the levels `vcc` and `rst` (rule R234). -/
def SignalTransition (vcc rst : Bool) (s t : State) : Prop :=
  (s.top ≠ .reset ∧ t.top = .reset ∧ (rst = true ∨ vcc = false))
    ∨ (s.top = .reset ∧ t.top = .waitAtr ∧ resetActive s.status = true ∧ vcc = true ∧ rst = false)

/-- A signal changes `TOP` by the table (rule R214). -/
theorem signalEvent_followsTable {clk vcc rst : Bool} (h : signalEvent clk vcc rst s = .next t)
    (hne : t.top ≠ s.top) : SignalTransition vcc rst s t := by
  obtain rfl | ⟨-, h⟩ := whenLive_next h
  · exact absurd rfl hne
  obtain rfl := Host.Outcome.next.inj h
  have hfall := fallToReset_top (recordLevels rst vcc clk s)
  split_ifs at hne ⊢ with hrst hvcc
  · obtain ⟨hout, hin⟩ := hfall.resolve_left hne
    exact .inl ⟨hout, hin, .inl hrst⟩
  · obtain ⟨hout, hin⟩ := hfall.resolve_left hne
    exact .inl ⟨hout, hin, .inr hvcc⟩
  · obtain ⟨hwas, hout, hin⟩ := (releaseReset_top _ _).resolve_left hne
    exact .inr ⟨hout, hin, hwas, Bool.eq_true_of_not_eq_false hvcc,
      Bool.eq_false_of_not_eq_true hrst⟩

/-! ### The events that are in no row -/

theorem whenLive_keeps_top {f : State → State} (hf : (f s).top = s.top)
    (h : whenLive (fun s => .next (f s)) s = .next t) : t.top = s.top := by
  obtain rfl | ⟨-, h⟩ := whenLive_next h
  · rfl
  · obtain rfl := Host.Outcome.next.inj h
    exact hf

/-- A query is answered on the port (rule R89). -/
theorem query_exec {i : Instr} (hi : isQuery i = true) : ∃ r, exec i = answerQuery r := by
  cases i with
  | funcValidF f => exact ⟨fun _ => .bool (validF f), rfl⟩
  | funcValidD d => exact ⟨fun s => .bool (validD s.params.diTail d), rfl⟩
  | funcFidiRatio x => exact ⟨fun s => .timing (fidiToRatio s.params.diTail x), rfl⟩
  | funcCalcWt wi fi f di d => exact ⟨fun s => .timing (calcWt s.params.diTail wi fi di f d), rfl⟩
  | funcClassifyCase seg => exact ⟨fun _ => .apduCase (classifyCase seg), rfl⟩
  | funcClassifyPb ins b => exact ⟨fun _ => .pbClass (classifyPb ins b), rfl⟩
  | funcAtrParse x => exact ⟨fun s => .parse (atrParse s.params x), rfl⟩
  | funcAtrBuild x => exact ⟨fun s => .build (atrBuildTagged s.params x), rfl⟩
  | _ => cases hi

theorem isQuery_keeps_top {i : Instr} (hi : isQuery i = true) (h : exec i s = .next t) :
    t.top = s.top := by
  obtain ⟨r, hexec⟩ := query_exec hi
  rw [hexec] at h
  exact whenLive_keeps_top (f := fun s => { s with queryPort := some (r s) }) rfl h

theorem illegalEvent_keeps_top (h : illegalEvent s = .next t) : t.top = s.top :=
  whenLive_keeps_top (f := enterFault .illegalEvent) rfl h

theorem cardInsertEvent_keeps_top {ins : Bool} (h : cardInsertEvent ins s = .next t) :
    t.top = s.top :=
  whenLive_keeps_top (f := fun s => emit (.change (withCardInsert s.status ins))
    { s with status := withCardInsert s.status ins }) rfl h

@[simp] theorem setAtr_top (x : List Byte) (s : State) : (setAtr x s).top = s.top := by
  unfold setAtr
  split_ifs
  · rfl
  · split <;> rfl

/-- The bridge does not write the line side (rule R298). -/
theorem ofBridge_keeps_top {i : Instr} (hi : ofBridge i = true) (h : exec i s = .next t) :
    t.top = s.top := by
  obtain ⟨b, out, e, hself⟩ := bridgeIgnoresTheLineSide i s t hi h
  have ht := Host.Outcome.next.inj (h.symm.trans (hself s rfl rfl))
  rw [ht]

/-! ### The table -/

section
variable {i : Instr}

/-- `TOP` follows one of the twelve rows of the table, each with its event (rule R234). -/
def FollowsTable (i : Instr) (s t : State) : Prop :=
  (∃ clk vcc rst, i.event = .signal clk vcc rst ∧ SignalTransition vcc rst s t)
    ∨ (∃ dir b, i.event = .lineByte dir false false false b ∧ ByteTransition b s t)
    ∨ (i.event = .wtExpiry ∧ s.timer.armed = true ∧ ExpiryTransition s t)

theorem followsTable_lineByte {dir pe oe fe : Bool} (hi : i.event = .lineByte dir pe oe fe b)
    (h : exec i s = .next t) (hne : t.top ≠ s.top) : FollowsTable i s t := by
  rw [exec_eq_event, hi] at h
  obtain ⟨⟨rfl, rfl, rfl⟩, hrow⟩ := lineEvent_followsTable (dir := dir) h hne
  exact .inr (.inl ⟨dir, b, hi, hrow⟩)

theorem followsTable_wtExpiry (hi : i.event = .wtExpiry) (h : exec i s = .next t)
    (hne : t.top ≠ s.top) : FollowsTable i s t := by
  rw [exec_eq_event, hi] at h
  exact .inr (.inr ⟨hi, expiryEvent_followsTable h hne⟩)

theorem followsTable_signal {clk vcc rst : Bool} (hi : i.event = .signal clk vcc rst)
    (h : exec i s = .next t) (hne : t.top ≠ s.top) : FollowsTable i s t := by
  rw [exec_eq_event, hi] at h
  exact .inl ⟨clk, vcc, rst, hi, signalEvent_followsTable h hne⟩

/-- Only line bytes, WT expiries and signals change `TOP`. -/
theorem followsTable (h : exec i s = .next t) (hne : t.top ≠ s.top) : FollowsTable i s t := by
  cases i with
  | apduSegNew | apduSegCont | cardResp | statusIn =>
    exact absurd (ofBridge_keeps_top rfl h) hne
  | wtExpiry | wtExpiryWaitAtr | wtExpiryInAtr | wtExpiryWaitApdu | wtExpiryInApdu
  | wtExpiryInPts => exact followsTable_wtExpiry rfl h hne
  | signal | signalRstAssert | signalRstRelease | signalVccOff | signalClk =>
    exact followsTable_signal rfl h hne
  | atrSet x => exact absurd (whenLive_keeps_top (setAtr_top x s) h) hne
  | cardInsert => exact absurd (cardInsertEvent_keeps_top h) hne
  | funcValidF | funcValidD | funcFidiRatio | funcCalcWt | funcClassifyCase | funcClassifyPb
  | funcAtrParse | funcAtrBuild => exact absurd (isQuery_keeps_top rfl h) hne
  | reservedFn | reservedKind0 | reservedKind9 | reservedKindB | reservedKindC | reservedKindD
  | reservedKindE | reservedKindF => exact absurd (illegalEvent_keeps_top h) hne
  | _ => exact followsTable_lineByte rfl h hne

end

end

/-- Settles O14: each event follows its part of the table. -/
theorem topChangesOnlyByTheTable : Obligations.TopChangesOnlyByTheTable := by
  unfold Obligations.TopChangesOnlyByTheTable
  intro i s t h hne
  obtain ⟨clk, vcc, rst, hi, ⟨hout, hin, hlevels⟩ | ⟨hout, hin, hwas, rfl, rfl⟩⟩
    | ⟨dir, b, hi, hrow⟩ | ⟨hi, harmed, hrow⟩ := followsTable h hne
  · exact .inl ⟨hout, hin, clk, vcc, rst, hi, hlevels⟩
  · exact .inr (.inl ⟨hout, hin, hwas, clk, hi⟩)
  · exact .inr (.inr (.inl ⟨dir, b, hi, hrow⟩))
  · exact .inr (.inr (.inr ⟨hi, harmed, hrow⟩))

end Sys2Proof.Machine

/-! ## Line bytes that no phase takes, and the first of the ATR (rules R211, R221, R236) -/

namespace Sys2Proof.Machine

section
variable {s : State} {b : Byte}

theorem lineEvent_reset (dir pe oe fe : Bool) (htop : s.top = .reset) :
    lineEvent dir pe oe fe b s = .next s := by
  simp [lineEvent, whenLive, htop]

/-- The TS byte, with room for it: it cannot complete the ATR (rules R142, R143, R221). -/
theorem ruleWaitAtr_eq (hroom : s.atr.buf.length ≠ s.params.atrMax) :
    ruleWaitAtr b s = .done { s with
      top := .inAtr, atr := { s.atr with buf := s.atr.buf ++ [b], st := .waitT0 } } := by
  obtain ⟨hfull, -⟩ | ⟨-, -, h⟩ | ⟨-, hst, -⟩ :=
    atrRule_cases { s with top := .inAtr } takeTs b _ rfl
  · exact absurd hfull hroom
  · exact h
  · cases hst

end

/-- Settles O15: an error row is the line byte with the row's error bit set. -/
theorem framingErrorIsReportedOnly : Obligations.FramingErrorIsReportedOnly := by
  unfold Obligations.FramingErrorIsReportedOnly
  intro s dir x y b hfault htop
  have hrow {pe oe fe : Bool} (he : (pe || oe || fe) = true) :
      framingRow dir pe oe fe b s = .next (afterError s (.framing b pe oe fe)) := by
    rw [framingRow_eq_lineEvent he, lineEvent_error dir hfault htop he]
  exact ⟨hrow (by simp), hrow (by simp), hrow (by simp)⟩

/-- Settles O16: the row is the event, and the event is ignored, faulted slot or not. -/
theorem lineByteInResetIsIgnored : Obligations.LineByteInResetIsIgnored := by
  unfold Obligations.LineByteInResetIsIgnored
  intro s dir pe oe fe b htop
  have hignored : exec (.lineByte dir pe oe fe b) s = .next s := lineEvent_reset dir pe oe fe htop
  have hrow : exec (.lineByteReset dir pe oe fe b) s = exec (.lineByte dir pe oe fe b) s :=
    exec_eq_of_event_eq s rfl
  exact ⟨hrow.trans hignored, hignored⟩

/-- Settles O18: the phase row applies, and the TS row shares its event. -/
theorem firstByteStartsTheAtr : Obligations.FirstByteStartsTheAtr := by
  unfold Obligations.FirstByteStartsTheAtr
  intro s dir b hfault htop hroom
  exact ⟨lineRow_afterByte_silent (rule := ruleWaitAtr b) hfault (atTop_iff.mpr htop) nofun
    (ruleWaitAtr_eq hroom), exec_eq_of_event_eq s rfl⟩

end Sys2Proof.Machine

/-! ## A line byte in `InAtr`, `InPts` and `InApdu` (rules R220, R222, R224) -/

namespace Sys2Proof.Machine

section
variable {s : State} {b : Byte}

/-! ### `InAtr` -/

/-- Completion leaves the slot in `WaitApdu` with the ATR out as one record, whatever becomes of the
timing (rules R151, R152). -/
theorem afterAtrByte_done {r : AtrRegs} (hst : r.st = .done) :
    ∃ timing err post, afterAtrByte s r = afterByte
      { s with
        atr := r, obuf := [], top := .waitApdu, tpdu := .cleared, timing := timing, lastErr := err }
      (flushed .atrDone s.obuf ++ [.atr r.buf r.buf.length] ++ post) := by
  unfold afterAtrByte
  rw [if_neg (not_not_intro hst)]
  simp only
  split
  next => exact ⟨_, s.lastErr, [], by rw [List.append_nil]⟩
  next => exact ⟨s.timing, _, _, rfl⟩

theorem afterAtrByte_goesOn {r : AtrRegs} (hst : r.st ≠ .done) :
    afterAtrByte s r = afterByte { s with atr := r } [] :=
  if_pos hst

/-! ### `InPts` -/

/-- What an exchange read in order says of the PPS registers. -/
theorem inExchange_of_ppsInv (h : ppsInv s) (htop : s.top = .inPts) : InExchange s.pps := by
  obtain ⟨hsoFar, hxor, hreq, hresp⟩ := h.2 htop
  exact ⟨hsoFar, hxor, hreq, hresp⟩

/-! ### `InApdu` -/

/-- What a header read in order says of the TPDU registers. -/
theorem inTpdu_of_tpduInv (h : tpduInv s) (htop : s.top = .inApdu) : InTpdu s.tpdu := by
  obtain ⟨hcounters, -, hin⟩ := h
  obtain ⟨hstarted, hopen, hheader, hbody, hnoBurst, hburst, hsw⟩ := hin htop
  exact ⟨hcounters, hstarted, hopen, hheader, hbody, hnoBurst, hburst, hsw⟩

/-- A byte in `InApdu`: the append, and what the TPDU rule writes after it (rules R220, R232). -/
theorem ruleInApdu_writes {u : State} (hu : ruleInApdu b s = .done u) :
    ∃ top r out err, u = { s with
        obuf := appendedObuf s.params.obufSize s.obuf b, top := top, tpdu := r
        outq := s.outq ++ appendedOut s.params.obufSize s.obuf b ++ out, lastErr := err }
      ∧ (top = s.top ∨ (top = .waitApdu ∧ s.tpdu.st = .sw2)) := by
  rw [ruleInApdu, ruleAppended, obufAppend_eq] at hu
  exact ruleTpdu_writes hu

end

/-- Settles O20: the sub-state's row reads the byte into the registers, which go on or are
complete. -/
theorem inAtrDispatchesOnTheSubState : Obligations.InAtrDispatchesOnTheSubState := by
  unfold Obligations.InAtrDispatchesOnTheSubState
  intro s dir b hfault htop hst hroom
  have hrow : exec (.lineByteInAtr dir b) s = exec (atrRowOf s.atr.st dir b) s :=
    exec_eq_of_event_eq s (atrRowOf_event_wf s.atr.st dir b).1.symm
  have hbuf : (readAtrByte s.params.wiTcIndex b s.atr).buf = s.atr.buf ++ [b] :=
    takeAtrByte_buf _ _ _
  refine ⟨hrow, _, hrow.trans (exec_atrRow hfault htop hst hroom), ?_⟩
  generalize readAtrByte s.params.wiTcIndex b s.atr = r at hbuf ⊢
  by_cases hdone : r.st = .done
  · obtain ⟨timing, err, post, heq⟩ := afterAtrByte_done (s := s) hdone
    rw [heq]
    refine ⟨hbuf, .inr ⟨rfl, hdone, rfl, rfl, flushed .atrDone s.obuf,
      post ++ [.timerSetWtime timing.wt, .timerArm], ?_⟩, rfl, rfl, rfl, rfl, rfl, rfl, rfl, rfl,
      hfault, rfl, rfl⟩
    simp only [afterByte_outq, afterByte_atr, List.append_assoc]
  · rw [afterAtrByte_goesOn hdone]
    exact ⟨hbuf, .inl ⟨htop, hdone, rfl, rfl, rfl, rfl⟩, rfl, rfl, rfl, rfl, rfl, rfl, rfl, rfl,
      hfault, rfl, rfl⟩

/-- Settles O29: in an exchange read in order the rule completes, and it goes on with the exchange
or ends it. -/
theorem inPtsDispatchesOnThePosition : Obligations.InPtsDispatchesOnThePosition := by
  unfold Obligations.InPtsDispatchesOnThePosition
  intro s dir b hfault htop hpps
  obtain ⟨u, hu, -⟩ := completes_ruleInPts (b := b) (inExchange_of_ppsInv hpps htop)
  have hrow {v : State} (hv : ruleInPts b s = .done v) (hvtop : v.top ≠ .reset) :
      exec (.lineByteInPts dir b) s = .next (rearm v) := by
    have happlies : atTop .inPts s = true := atTop_iff.mpr htop
    rw [rearm_eq_afterByte]
    exact lineRow_afterByte_silent (rule := ruleInPts b) hfault happlies hvtop hv
  refine ⟨exec_eq_of_event_eq s (ppsRowOf_event_wf s.pps.phase s.pps.pos dir b).1.symm, ?_⟩
  obtain ⟨r, out, err, rfl⟩ | ⟨-, -, r, out, err, rfl⟩ := ruleInPts_done hu
  · exact ⟨_, hrow hu (by simp [htop]), .inl ⟨htop, rfl, rfl⟩, rfl, rfl, rfl, rfl, rfl, rfl,
      rfl, rfl, rfl, hfault, rfl, rfl⟩
  · exact ⟨_, hrow hu nofun, .inr ⟨rfl, rfl, rfl⟩, rfl, rfl, rfl, rfl, rfl, rfl, rfl, rfl, rfl,
      hfault, rfl, rfl⟩

/-- Settles O40: with a header read in order the rule completes, and it writes the TPDU registers
only, after the append. -/
theorem inApduDispatchesOnTheSubState : Obligations.InApduDispatchesOnTheSubState := by
  unfold Obligations.InApduDispatchesOnTheSubState
  intro s dir b hfault htop htpdu
  obtain ⟨u, hu, -⟩ := completes_ruleInApdu (b := b) (inTpdu_of_tpduInv htpdu htop)
  obtain ⟨top, r, out, err, rfl, hphase⟩ := ruleInApdu_writes hu
  rw [htop] at hphase
  have hrunning : top ≠ .reset := by
    rintro rfl
    simp at hphase
  have happlies : atTop .inApdu s = true := atTop_iff.mpr htop
  refine ⟨exec_eq_of_event_eq s (tpduRowOf_event_wf s.tpdu.st s.tpdu.ctx.hdr.ins dir b).1.symm, _,
    lineRow_afterByte_silent (rule := ruleInApdu b) hfault happlies hrunning hu, rfl,
    ⟨out ++ [.timerSetWtime s.timing.wt, .timerArm], ?_⟩, hphase, rfl, rfl, rfl, rfl, rfl, rfl, rfl,
    rfl, rfl, rfl, hfault, rfl, rfl⟩
  simp only [afterByte_outq, List.append_assoc, List.nil_append]

end Sys2Proof.Machine

/-! ## `OBUF` loses no byte (rules R231, R232) -/

namespace Sys2Proof.Machine

/-- From `s` to `t` the bytes `x` have been put through `OBUF`: full records came out, and with what
is left they are the bytes held before, followed by `x`. -/
def PutThrough (x : List Byte) (s t : State) : Prop :=
  t.params = s.params ∧ t.obuf.length < t.params.obufSize
    ∧ ∃ cut : List (List Byte), t.outq = s.outq ++ cut.map (fun y => .data y .full)
      ∧ (∀ y ∈ cut, y.length = s.params.obufSize)
      ∧ cut.flatten ++ t.obuf = s.obuf ++ x

section
variable {s t u : State} {x y : List Byte}

theorem PutThrough.refl (h : s.obuf.length < s.params.obufSize) : PutThrough [] s s :=
  ⟨rfl, h, [], by simp, by simp, by simp⟩

theorem PutThrough.trans (hst : PutThrough x s t) (htu : PutThrough y t u) :
    PutThrough (x ++ y) s u := by
  obtain ⟨hparams, -, cut, hout, hfull, hbytes⟩ := hst
  obtain ⟨hparams', hroom, cut', hout', hfull', hbytes'⟩ := htu
  refine ⟨hparams'.trans hparams, hroom, cut ++ cut', ?_, fun z hz => ?_, ?_⟩
  · rw [hout', hout, List.map_append, List.append_assoc]
  · obtain hz | hz := List.mem_append.mp hz
    · exact hfull z hz
    · rw [← hparams]
      exact hfull' z hz
  · rw [List.flatten_append, List.append_assoc, hbytes', ← List.append_assoc, hbytes,
      List.append_assoc]

/-- One byte fills the buffer and is flushed with it, or stays (rule R232). -/
theorem putThrough_obufAppend (b : Byte) (h : s.obuf.length < s.params.obufSize) :
    PutThrough [b] s (obufAppend b s) := by
  rw [obufAppend_eq]
  refine ⟨rfl, appendedObuf_length_lt b h, ?_⟩
  by_cases hfull : s.obuf.length + 1 = s.params.obufSize
  · refine ⟨[s.obuf ++ [b]], ?_, ?_, ?_⟩
    · simp [appendedOut, hfull]
    · simp [hfull]
    · simp [appendedObuf, hfull]
  · refine ⟨[], ?_, by simp, ?_⟩
    · simp [appendedOut, hfull]
    · simp [appendedObuf, hfull]

theorem putThrough_foldl (x : List Byte) (h : s.obuf.length < s.params.obufSize) :
    PutThrough x s (x.foldl (fun u b => obufAppend b u) s) := by
  induction x generalizing s with
  | nil => exact .refl h
  | cons b x ih =>
    have hbyte := putThrough_obufAppend b h
    have ⟨_, hroom, _⟩ := hbyte
    exact hbyte.trans (ih hroom)

end

/-- Settles O42: byte by byte. -/
theorem outboundBufferLosesNoByte : Obligations.OutboundBufferLosesNoByte := by
  unfold Obligations.OutboundBufferLosesNoByte
  intro s x h
  obtain ⟨hparams, hroom, cut, hout, hfull, hbytes⟩ := putThrough_foldl x h
  exact ⟨_, cut, rfl, hout, hfull, hbytes, hparams ▸ hroom⟩

end Sys2Proof.Machine

/-! ## What a WT expiry does (rules R225 to R230) -/

namespace Sys2Proof.Machine

section
variable {s : State}

theorem expiryEvent_disarmed (harmed : s.timer.armed = false) : expiryEvent s = .next s := by
  simp [expiryEvent, whenLive, harmed]

/-- An admitted expiry is the rule of the phase, given the disarmed timer. -/
theorem exec_wtExpiry {rule : State → Effect} {t : State} (hfault : s.fault = none)
    (harmed : s.timer.armed = true) (hphase : expiryPhase s = handExpiry rule s)
    (hrule : rule { s with timer := { s.timer with armed := false } } = .done t) :
    exec .wtExpiry s = .next t := by
  change expiryEvent s = _
  rw [expiryEvent, whenLive_live s _ hfault, if_pos harmed, hphase, handExpiry_done hrule]

end

/-- Settles O43: the phase rows share the event that is dropped. -/
theorem lateExpiryIsDropped : Obligations.LateExpiryIsDropped := by
  unfold Obligations.LateExpiryIsDropped
  intro s harmed
  have hrow {i : Instr} (hi : i.event = .wtExpiry) : exec i s = .next s := by
    rw [exec_eq_event, hi]
    exact expiryEvent_disarmed harmed
  exact ⟨hrow rfl, hrow rfl, hrow rfl, hrow rfl, hrow rfl, hrow rfl⟩

/-- Settles O44: phase by phase, each row sharing the event. -/
theorem admittedExpiryActsByPhase : Obligations.AdmittedExpiryActsByPhase := by
  unfold Obligations.AdmittedExpiryActsByPhase
  intro s hfault harmed
  have hrow (i : Instr) (hi : i.event = .wtExpiry) : exec i s = exec .wtExpiry s :=
    exec_eq_of_event_eq s hi
  refine ⟨_, rfl, ?waitAtr, ?ignore, ?abort, ?waitApdu, ?inApdu, ?inPts⟩
  case waitAtr =>
    intro htop
    have h := exec_wtExpiry hfault harmed (by rw [expiryPhase, htop])
      (rule := expiryWaitAtr) rfl
    exact ⟨h, (hrow _ rfl).trans h⟩
  case ignore =>
    intro htop hwt
    have h := exec_wtExpiry hfault harmed (by rw [expiryPhase, htop])
      (rule := expiryInAtr) (by simp only [expiryInAtr, hwt]; rfl)
    exact ⟨h, (hrow _ rfl).trans h⟩
  case abort =>
    intro htop hwt
    have h := exec_wtExpiry hfault harmed (by rw [expiryPhase, htop])
      (rule := expiryInAtr) (by simp only [expiryInAtr, hwt, enterWaitAtr_eq]; rfl)
    exact ⟨h, (hrow _ rfl).trans h⟩
  case waitApdu =>
    intro htop
    exact ⟨exec_wtExpiry hfault harmed (by rw [expiryPhase, htop])
      (rule := expiryWaitApdu) (by rw [expiryWaitApdu, flush_eq]), hrow _ rfl⟩
  case inApdu =>
    intro htop
    exact ⟨exec_wtExpiry hfault harmed (by rw [expiryPhase, htop])
      (rule := expiryInApdu) (by rw [expiryInApdu, flush_eq]; rfl), hrow _ rfl⟩
  case inPts =>
    intro htop
    exact ⟨exec_wtExpiry hfault harmed (by rw [expiryPhase, htop])
      (rule := expiryInPts) (by rw [expiryInPts, flush_eq]; rfl), hrow _ rfl⟩

end Sys2Proof.Machine

/-! ## What signals and `CARD_INSERT` do (rules R214 to R219, R235) -/

namespace Sys2Proof.Machine

section
variable {s : State}

/-! ### `Reset` and `WaitAtr` entry after the levels -/

/-- From another phase `Reset` is entered, the change reported first (rules R212, R215, R217). -/
theorem fallToReset_recordLevels (htop : s.top ≠ .reset) (rst vcc clk : Bool) :
    fallToReset (recordLevels rst vcc clk s) = { inReset s with
      status := withLevels s.status rst vcc clk
      outq := s.outq ++ [.change (withLevels s.status rst vcc clk)] ++ resetOut s } := by
  have htop' : (recordLevels rst vcc clk s).top ≠ .reset := htop
  rw [fallToReset, if_neg htop', enterReset_eq, resetOut_recordLevels]
  rfl

/-- In `Reset` nothing follows the levels (rules R215, R217). -/
theorem fallToReset_skip (htop : s.top = .reset) : fallToReset s = s :=
  if_pos htop

/-- `WaitAtr` is entered from `Reset`, the change reported first (rules R213, R216). -/
theorem releaseReset_recordLevels (htop : s.top = .reset) (rst vcc clk : Bool) :
    releaseReset true (recordLevels rst vcc clk s) = { inWaitAtr s with
      status := withLevels s.status rst vcc clk
      outq := s.outq ++ [.change (withLevels s.status rst vcc clk)] ++ waitAtrOut s } := by
  have htop' : (recordLevels rst vcc clk s).top = .reset := htop
  rw [releaseReset, if_pos ⟨rfl, htop'⟩, enterWaitAtr_eq, waitAtrOut_recordLevels]
  rfl

/-! ### The rows -/

section
variable (hfault : s.fault = none)
include hfault

theorem exec_signalRstAssert (clk vcc : Bool) :
    exec (.signalRstAssert clk vcc) s = .next (fallToReset (recordLevels true vcc clk s)) := by
  change execSignalRstAssert clk vcc s = _
  rw [execSignalRstAssert, whenLive_live s _ hfault]

theorem exec_signalVccOff (clk : Bool) :
    exec (.signalVccOff clk) s = .next (fallToReset (recordLevels false false clk s)) := by
  change execSignalVccOff clk s = _
  rw [execSignalVccOff, whenLive_live s _ hfault]

theorem exec_signalRstRelease (clk : Bool) :
    exec (.signalRstRelease clk) s
      = .next (releaseReset (resetActive s.status) (recordLevels false true clk s)) := by
  change execSignalRstRelease clk s = _
  rw [execSignalRstRelease, whenLive_live s _ hfault]

end

/-! ### A signal is never an error -/

/-- From `s` to `t` no error is reported, and the registers of the slot are as they were. -/
def Quiet (s t : State) : Prop :=
  SameSlot s t ∧ t.fault = s.fault ∧ t.lastErr = s.lastErr
    ∧ ∃ out, t.outq = s.outq ++ out ∧ ∀ e, .error e ∉ out

theorem Quiet.refl (s : State) : Quiet s s :=
  ⟨⟨rfl, rfl, rfl, rfl, rfl, rfl⟩, rfl, rfl, [], by simp, by simp⟩

theorem error_not_mem_flushed (reason : FlushReason) (x : List Byte) (e : ErrInfo) :
    .error e ∉ flushed reason x := by
  unfold flushed
  split_ifs <;> simp

theorem error_not_mem_disarmed (armed : Bool) (e : ErrInfo) : .error e ∉ disarmed armed := by
  cases armed <;> simp [disarmed]

theorem error_not_mem_resetOut (s : State) (e : ErrInfo) : .error e ∉ resetOut s := by
  cases hflush : s.params.resetFlush <;>
    simp [resetOut, hflush, error_not_mem_flushed, error_not_mem_disarmed]

theorem error_not_mem_waitAtrOut (s : State) (e : ErrInfo) : .error e ∉ waitAtrOut s := by
  by_cases hmode : s.mode = .cardEmu <;>
    simp [waitAtrOut, hmode, error_not_mem_disarmed]

theorem quiet_fallToReset (s : State) : Quiet s (fallToReset s) := by
  unfold fallToReset
  split_ifs
  · exact .refl s
  · rw [enterReset_eq]
    exact ⟨⟨rfl, rfl, rfl, rfl, rfl, rfl⟩, rfl, rfl, _, rfl, error_not_mem_resetOut s⟩

theorem quiet_releaseReset (wasReset : Bool) (s : State) : Quiet s (releaseReset wasReset s) := by
  unfold releaseReset
  split_ifs
  · rw [enterWaitAtr_eq]
    exact ⟨⟨rfl, rfl, rfl, rfl, rfl, rfl⟩, rfl, rfl, _, rfl, error_not_mem_waitAtrOut s⟩
  · exact .refl s

/-- Every signal records its levels and is quiet after that (rule R214). -/
theorem exec_signal_quiet (hfault : s.fault = none) (clk vcc rst : Bool) :
    ∃ t, exec (.signal clk vcc rst) s = .next t ∧ Quiet (recordLevels rst vcc clk s) t := by
  change ∃ t, signalEvent clk vcc rst s = .next t ∧ _
  rw [signalEvent, whenLive_live s _ hfault]
  refine ⟨_, rfl, ?_⟩
  split_ifs
  · exact quiet_fallToReset _
  · exact quiet_fallToReset _
  · exact quiet_releaseReset _ _

end

/-- Settles O45: both rows record the levels and fall to `Reset`. -/
theorem resetAssertionAndVccLossEnterReset : Obligations.ResetAssertionAndVccLossEnterReset := by
  unfold Obligations.ResetAssertionAndVccLossEnterReset
  intro s clk vcc hfault
  refine ⟨_, _, rfl, rfl, fun htop => ⟨?_, ?_⟩, fun htop => ⟨?_, ?_⟩⟩
  · rw [exec_signalRstAssert hfault, fallToReset_recordLevels htop]
  · rw [exec_signalVccOff hfault, fallToReset_recordLevels htop]
  · rw [exec_signalRstAssert hfault, fallToReset_skip (s := recordLevels _ _ _ s) htop]
    rfl
  · rw [exec_signalVccOff hfault, fallToReset_skip (s := recordLevels _ _ _ s) htop]
    rfl

/-- Settles O46: the release leaves `Reset` or is skipped, and the CLK row shares its event. -/
theorem resetReleaseEntersWaitAtr : Obligations.ResetReleaseEntersWaitAtr := by
  unfold Obligations.ResetReleaseEntersWaitAtr
  intro s clk hfault
  refine ⟨_, rfl, fun hactive htop => ?_, fun hkeep => ?_⟩
  · rw [exec_signalRstRelease hfault, hactive, releaseReset_recordLevels htop]
  · have hskip : exec (.signalRstRelease clk) s = .next (recordLevels false true clk s) := by
      rw [exec_signalRstRelease hfault,
        releaseReset_skip (s := recordLevels false true clk s) hkeep]
    have hclk : exec (.signalClk clk true false) s = exec (.signalRstRelease clk) s :=
      exec_eq_of_event_eq s rfl
    exact ⟨hskip, hclk.trans hskip⟩

/-- Settles O47: the levels are recorded, and the rest of the event is quiet. -/
theorem signalIsRecordedAndNeverAnError : Obligations.SignalIsRecordedAndNeverAnError := by
  unfold Obligations.SignalIsRecordedAndNeverAnError
  intro s clk vcc rst hfault
  obtain ⟨t, ht, hslot, htfault, herr, out, hout, hquiet⟩ := exec_signal_quiet hfault clk vcc rst
  have hstatus : t.status = mkFlags rst vcc clk (cardInserted s.status) (rcemuFlag s.status) :=
    hslot.status
  have hclk : exec (.signalClk clk vcc rst) s = exec (.signal clk vcc rst) s :=
    exec_eq_of_event_eq s rfl
  refine ⟨t, ht, hclk.trans ht, ?_, ?_, ?_, ?_, ?_, htfault.trans hfault, herr,
    hslot.bridge, hslot.atrCfg, hslot.mode, hslot.params, out, ?_, hquiet⟩
  · rw [hstatus, resetActive_mkFlags]
  · rw [hstatus, vccPresent_mkFlags]
  · rw [hstatus, clkActive_mkFlags]
  · rw [hstatus, cardInserted_mkFlags]
  · rw [hstatus, rcemuFlag_mkFlags]
  · rw [hout, hslot.status, recordLevels_outq, recordLevels_status, List.append_assoc]
    rfl

/-- Settles O48: the new flags are the old ones but for the one place. -/
theorem cardInsertIsRecordedOnly : Obligations.CardInsertIsRecordedOnly := by
  unfold Obligations.CardInsertIsRecordedOnly
  intro s ins hfault
  have hevent : cardInsertEvent ins s = .next { s with
      status := withCardInsert s.status ins
      outq := s.outq ++ [.change (withCardInsert s.status ins)] } := by
    rw [cardInsertEvent, whenLive_live s _ hfault]
    rfl
  exact ⟨withCardInsert s.status ins, hevent, cardInserted_mkFlags .., resetActive_mkFlags ..,
    vccPresent_mkFlags .., clkActive_mkFlags .., rcemuFlag_mkFlags ..⟩

end Sys2Proof.Machine

/-! ## What a TPDU byte does (rules R252 to R266) -/

namespace Sys2Proof.Machine

/-! ### A byte of a TPDU, as one update of the slot -/

section
variable {applies : State → Bool} {rule : State → Effect} {dir : Bool} {b : Byte} {s : State}
  {r : TpduRegs}

/-- Where a row of `InApdu` applies and its rule, whatever `OBUF` and `OUTQ` hold, writes the TPDU
registers and `LAST_ERR` and emits `out`, that is what the byte does after the append (rules R220,
R232). -/
theorem appendedRow_afterTpduByte {err : Option ErrInfo} {out : List Record}
    (hfault : s.fault = none) (htop : s.top = .inApdu) (happlies : applies s = true)
    (hrule : ∀ x y, rule { s with obuf := x, outq := y }
      = .done { s with obuf := x, tpdu := r, lastErr := err, outq := y ++ out }) :
    lineRow applies (ruleAppended rule b) dir b s
      = .next (afterTpduByte { s with lastErr := err } b r out) := by
  rw [afterTpduByte, ← htop]
  refine lineRow_afterByte hfault happlies (by simp [htop]) ?_
  rw [ruleAppended, obufAppend_eq, hrule, List.append_assoc]

/-- A rule that writes the TPDU registers only. -/
theorem appendedRow_afterTpduByte_silent (hfault : s.fault = none) (htop : s.top = .inApdu)
    (happlies : applies s = true)
    (hrule : ∀ x y, rule { s with obuf := x, outq := y }
      = .done { s with obuf := x, outq := y, tpdu := r }) :
    lineRow applies (ruleAppended rule b) dir b s = .next (afterTpduByte s b r []) :=
  appendedRow_afterTpduByte (err := s.lastErr) hfault htop happlies fun x y => by
    rw [hrule, List.append_nil]

end

/-! ### The header (rules R252 to R255) -/

section
variable {s : State} {b : Byte}

/-- A short Le as a word: 0 announces 256 bytes (rule R255). -/
theorem ofNat_shortLe (b : Byte) :
    BitVec.ofNat 32 (shortLe b) = if b = 0 then 256 else b.setWidth 32 := by
  unfold shortLe
  split_ifs
  · rfl
  · exact BitVec.ofNat_toNat 32 b

/-- P3 of a command whose data comes from the card announces Le: Case 2 (rule R255). -/
theorem ruleP3_fromCard
    (hdir : lineDir s.params.lineCase { s.tpdu.ctx.hdr with p3 := b } = .fromCard) :
    ruleP3 b s = .done { s with tpdu := ⟨.proc, s.tpdu.dataLeft, { s.tpdu.ctx with
      hdr := { s.tpdu.ctx.hdr with p3 := b }, apduCase := .case2
      lc := { s.tpdu.ctx.lc with tot := 0 }
      le := { s.tpdu.ctx.le with tot := if b = 0 then 256 else b.setWidth 32 } }⟩ } := by
  rw [← ofNat_shortLe]
  simp only [ruleP3, hdir, setTpdu]

/-- P3 of a command whose data goes to the card announces Lc: Case 3 (rule R255). -/
theorem ruleP3_toCard
    (hdir : lineDir s.params.lineCase { s.tpdu.ctx.hdr with p3 := b } = .toCard) :
    ruleP3 b s = .done { s with tpdu := ⟨.proc, s.tpdu.dataLeft, { s.tpdu.ctx with
      hdr := { s.tpdu.ctx.hdr with p3 := b }, apduCase := .case3
      le := { s.tpdu.ctx.le with tot := 0 }
      lc := { s.tpdu.ctx.lc with tot := b.setWidth 32 } }⟩ } := by
  rw [← BitVec.ofNat_toNat]
  simp only [ruleP3, hdir, setTpdu]

end

/-- Settles O34: the row of each place in the header applies, and its rule writes the TPDU registers
only. -/
theorem tpduHeaderIsRead : Obligations.TpduHeaderIsRead := by
  unfold Obligations.TpduHeaderIsRead
  intro s dir b hfault htop
  have happlies {st : TpduState} (hst : s.tpdu.st = st) : atTpdu st s = true :=
    atTpdu_iff.mpr ⟨htop, hst⟩
  refine ⟨_, _, rfl, rfl, ?ins, ?p1, ?p2, ?p3⟩
  case ins =>
    exact fun hst => appendedRow_afterTpduByte_silent (rule := ruleIns b) hfault htop
      (happlies hst) fun _ _ => rfl
  case p1 =>
    exact fun hst => appendedRow_afterTpduByte_silent (rule := ruleP1 b) hfault htop
      (happlies hst) fun _ _ => rfl
  case p2 =>
    exact fun hst => appendedRow_afterTpduByte_silent (rule := ruleP2 b) hfault htop
      (happlies hst) fun _ _ => rfl
  case p3 =>
    intro hst
    refine appendedRow_afterTpduByte_silent (rule := ruleP3 b) hfault htop (happlies hst)
      fun x y => ?_
    cases hdir : lineDir s.params.lineCase { s.tpdu.ctx.hdr with p3 := b } with
    | fromCard => exact ruleP3_fromCard (s := { s with obuf := x, outq := y }) hdir
    | toCard => exact ruleP3_toCard (s := { s with obuf := x, outq := y }) hdir

/-! ### The procedure bytes (rules R256 to R261) -/

/-- The high nibble of a byte put together from two (rule R10). -/
theorem hiNibble_joinNibbles (h l : Nibble) : hiNibble (joinNibbles h l) = h := by
  apply BitVec.eq_of_toNat_eq
  simp only [joinNibbles, hiNibble, BitVec.extractLsb'_toNat, BitVec.toNat_ofNat]
  omega

/-- The low nibble of a byte put together from two (rule R10). -/
theorem loNibble_joinNibbles (h l : Nibble) : loNibble (joinNibbles h l) = l := by
  apply BitVec.eq_of_toNat_eq
  simp only [joinNibbles, loNibble, BitVec.extractLsb'_toNat, BitVec.toNat_ofNat]
  omega

/-- A byte 0x6X other than NULL is an SW1 (rule R256). -/
theorem classifyPb_sw16x (ins : Byte) {lo : Nibble} (hlo : lo ≠ 0) :
    classifyPb ins (joinNibbles 6#4 lo) = .sw1 := by
  refine classifyPb_sw1 (fun hnull => hlo ?_) (.inl (hiNibble_joinNibbles 6#4 lo))
  rw [← loNibble_joinNibbles 6#4 lo, hnull]
  rfl

/-- A byte 0x9X is an SW1 (rule R256). -/
theorem classifyPb_sw19x (ins : Byte) (lo : Nibble) :
    classifyPb ins (joinNibbles 9#4 lo) = .sw1 := by
  have hhi := hiNibble_joinNibbles 9#4 lo
  refine classifyPb_sw1 (fun hnull => ?_) (.inr hhi)
  rw [hnull] at hhi
  exact absurd hhi (by decide)

section
variable {s : State} {b : Byte}

/-- In `Proc` a row applies to the bytes of its class (rule R98). -/
theorem atProc_of_class {c : PbClass} (htop : s.top = .inApdu) (hst : s.tpdu.st = .proc)
    (hclass : classifyPb s.tpdu.ctx.hdr.ins b = c) : atProc c b s = true :=
  atProc_iff.mpr ⟨⟨htop, hst⟩, hclass⟩

/-- A burst of `m` bytes is granted unless nothing remains, as an update of the TPDU registers
(rules R259, R260). -/
theorem grant_unless_none_remains (n m : Word) (s : State) :
    (if n = 0 then s else grant m s) = { s with
      tpdu := if n = 0 then s.tpdu else { s.tpdu with dataLeft := m, st := .data } } := by
  split_ifs <;> rfl

theorem rulePbAckAll_of_remaining {n : Word} (hn : remaining s.tpdu.ctx = some n) :
    rulePbAckAll s = .done { s with
      tpdu := if n = 0 then s.tpdu else { s.tpdu with dataLeft := n, st := .data } } := by
  rw [rulePbAckAll, hn, ← grant_unless_none_remains]

theorem rulePbAckOne_of_remaining {n : Word} (hn : remaining s.tpdu.ctx = some n) :
    rulePbAckOne s = .done { s with
      tpdu := if n = 0 then s.tpdu else { s.tpdu with dataLeft := 1, st := .data } } := by
  rw [rulePbAckOne, hn, ← grant_unless_none_remains]

/-- An unexpected byte is reported, and is then SW1 or NULL (rule R261). -/
theorem rulePbOther_eq (b : Byte) (s : State) :
    rulePbOther b s = .done { s with
      tpdu := match s.params.unexpectedPb with
        | .asSw1 => { s.tpdu with st := .sw2, ctx := { s.tpdu.ctx with sw0 := some b } }
        | .asNull => s.tpdu
      lastErr := some (.protocolDesync b)
      outq := s.outq ++ [.error (.protocolDesync b)] } := by
  cases hpb : s.params.unexpectedPb <;> simp only [rulePbOther, raise_params, hpb] <;> rfl

end

/-- Settles O35: the row of the byte's class applies; the rule of NULL writes nothing. -/
theorem nullWaitsAndSw1Ends : Obligations.NullWaitsAndSw1Ends := by
  unfold Obligations.NullWaitsAndSw1Ends
  intro s dir lo hfault htop hst
  refine ⟨?null, fun hlo => ?sw16x, ?sw19x⟩
  case null =>
    exact appendedRow_afterTpduByte_silent (rule := rulePbNull) hfault htop
      (atProc_of_class htop hst classifyPb_null) fun _ _ => rfl
  case sw16x =>
    exact appendedRow_afterTpduByte_silent (rule := rulePbSw1 (joinNibbles 6#4 lo)) hfault htop
      (atProc_of_class htop hst (classifyPb_sw16x _ hlo)) fun _ _ => rfl
  case sw19x =>
    exact appendedRow_afterTpduByte_silent (rule := rulePbSw1 (joinNibbles 9#4 lo)) hfault htop
      (atProc_of_class htop hst (classifyPb_sw19x _ lo)) fun _ _ => rfl

/-- Settles O36: INS and its complement are classes of their own, and what remains decides. -/
theorem acknowledgeGrantsData : Obligations.AcknowledgeGrantsData := by
  unfold Obligations.AcknowledgeGrantsData
  intro s dir b n hfault htop hst hack hn
  obtain ⟨-, -, hall, hone, -⟩ := classifyPb_iff s.tpdu.ctx.hdr.ins b
  refine ⟨fun hins => ?_, fun hcompl => ?_⟩
  · exact appendedRow_afterTpduByte_silent (rule := rulePbAckAll) hfault htop
      (atProc_of_class htop hst (hall.mpr ⟨hack, hins⟩)) fun _ _ => rulePbAckAll_of_remaining hn
  · exact appendedRow_afterTpduByte_silent (rule := rulePbAckOne) hfault htop
      (atProc_of_class htop hst (hone.mpr ⟨hack, hcompl⟩)) fun _ _ => rulePbAckOne_of_remaining hn

/-- Settles O37: a byte of no other class is reported before it is taken as SW1 or NULL. -/
theorem unexpectedProcedureByte : Obligations.UnexpectedProcedureByte := by
  unfold Obligations.UnexpectedProcedureByte
  intro s dir b hfault htop hst hack hins hcompl
  obtain ⟨-, -, -, -, hother⟩ := classifyPb_iff s.tpdu.ctx.hdr.ins b
  exact appendedRow_afterTpduByte (rule := rulePbOther b) hfault htop
    (atProc_of_class htop hst (hother.mpr ⟨hack, hins, hcompl⟩)) fun _ _ => rulePbOther_eq b _

/-! ### The data bytes (rules R262, R265) -/

section
variable {s : State} {b : Byte} {c c' : ApduCtx}

/-- Data from the card goes to `de` (rule R265). -/
theorem storeByte_response (hcase : c.apduCase = .case2) :
    storeByte b c = some { c with de := c.de ++ [b], le := ⟨c.le.cur + 1, c.le.tot⟩ } := by
  rw [storeByte, hcase]

/-- Data to the card goes to `dc` (rule R265). -/
theorem storeByte_command (hcase : c.apduCase = .case3 ∨ c.apduCase = .case4) :
    storeByte b c = some { c with dc := c.dc ++ [b], lc := ⟨c.lc.cur + 1, c.lc.tot⟩ } := by
  obtain hcase | hcase := hcase <;> rw [storeByte, hcase]

/-- A stored byte is counted off the burst, and the last of it returns to `Proc` (rule R262). -/
theorem ruleData_of_storeByte (hst : s.tpdu.st = .data)
    (hstore : storeByte b s.tpdu.ctx = some c') :
    ruleData b s = .done { s with tpdu :=
      ⟨if s.tpdu.dataLeft - 1 = 0 then .proc else .data, s.tpdu.dataLeft - 1, c'⟩ } := by
  rw [ruleData, hstore, hst]

end

/-- Settles O38: the case of the context says on which side the byte is stored. -/
theorem tpduDataIsStored : Obligations.TpduDataIsStored := by
  unfold Obligations.TpduDataIsStored
  intro s dir b hfault htop hst
  have hrow {c' : ApduCtx} (hstore : storeByte b s.tpdu.ctx = some c') :
      exec (.tpduData dir b) s = .next (afterTpduByte s b
        ⟨if s.tpdu.dataLeft - 1 = 0 then .proc else .data, s.tpdu.dataLeft - 1, c'⟩ []) :=
    appendedRow_afterTpduByte_silent (rule := ruleData b) hfault htop
      (atTpdu_iff.mpr ⟨htop, hst⟩) fun _ _ => ruleData_of_storeByte hst hstore
  exact ⟨_, _, _, rfl, rfl, rfl, fun hcase => hrow (storeByte_response hcase),
    fun hcase => hrow (storeByte_command hcase)⟩

/-! ### Completion (rule R263) -/

/-- Settles O39: the byte joins `OBUF` and the rule leaves `InApdu` without a flush of its own. -/
theorem sw2CompletesTheTpdu : Obligations.Sw2CompletesTheTpdu := by
  unfold Obligations.Sw2CompletesTheTpdu
  intro s dir b hfault htop hst
  refine lineRow_afterByte (rule := ruleAppended (ruleSw2 b) b) hfault
    (atTpdu_iff.mpr ⟨htop, hst⟩) nofun ?_
  rw [ruleAppended, obufAppend_eq, ← List.append_assoc]
  rfl

/-! ### NULL bytes in a row (rules R257, R266) -/

/-- A run goes on from the state its first step answers. -/
theorem run_succ_of_step {s t : State} (hstep : step s = .next t) (n : Nat) :
    Host.Core.run Sys2Proof.core (n + 1) s = Host.Core.run Sys2Proof.core n t := by
  have hcore : Sys2Proof.core.step s = .next t := hstep
  simp only [Host.Core.run, hcore]

/-- The event word of the NULL byte, DIR 0 (rules R80, R81). -/
theorem decode_nullWord :
    decode ⟨0x10000060, []⟩ = .ok (.lineByte false false false false 0x60#8) :=
  decode_lineByteWord false false false false 0x60#8

/-- A step on a NULL byte takes the event, and the byte only joins `OBUF` (rule R257). -/
theorem step_null {s : State} {rest : List RawEvent} (hfault : s.fault = none)
    (htop : s.top = .inApdu) (hst : s.tpdu.st = .proc) (hinq : s.inq = ⟨0x10000060, []⟩ :: rest) :
    step s = .next (afterTpduByte { s with inq := rest } 0x60#8 s.tpdu []) := by
  obtain ⟨hnull, -⟩ := nullWaitsAndSw1Ends { s with inq := rest } false 0 hfault htop hst
  calc step s
      = exec (.lineByte false false false false 0x60#8) { s with inq := rest } :=
        step_of_decode_ok hinq decode_nullWord
    _ = exec (.tpduPbNull false) { s with inq := rest } := exec_eq_of_event_eq _ rfl
    _ = _ := hnull

/-- Settles O41, by induction on the number of NULL bytes. -/
theorem repeatedNullChangesNoTpduRegister : Obligations.RepeatedNullChangesNoTpduRegister := by
  unfold Obligations.RepeatedNullChangesNoTpduRegister
  intro n
  induction n with
  | zero =>
    intro s rest hfault _ _ hinq
    exact ⟨s, rfl, rfl, rfl, hinq, hfault, rfl, rfl, rfl, rfl, rfl⟩
  | succ n ih =>
    intro s rest hfault htop hst hinq
    have hstep := step_null hfault htop hst (by rw [hinq, List.replicate_succ, List.cons_append])
    obtain ⟨t, hrun, htpdu, httop, hrest⟩ := ih
      (afterTpduByte { s with inq := List.replicate n ⟨0x10000060, []⟩ ++ rest } 0x60#8 s.tpdu [])
      rest hfault rfl hst rfl
    exact ⟨t, (run_succ_of_step hstep n).trans hrun, htpdu, httop.trans htop.symm, hrest⟩

end Sys2Proof.Machine

/-! ## The command APDU is the segments put together (rules R290 to R296) -/

namespace Sys2Proof.Machine

/-! ### The rows of the case discriminator -/

section
variable {seg : List Byte}

/-- The rows of the discriminator that classify a segment (rules R290, R291). -/
inductive CaseRow (seg : List Byte) : CaseInfo → Prop
  | header (hlen : seg.length = 4) : CaseRow seg ⟨.case1, 0, 0, false, 4, 0⟩
  | le (hlen : seg.length = 5) : CaseRow seg ⟨.case2, 0, leShort (segByte seg 4), false, 5, 0⟩
  | oneByte (hlen : seg.length = 6) :
      CaseRow seg ⟨.case3, segByte seg 4, 0, false, 5, min 1 (segByte seg 4)⟩
  | data (hlen : 7 ≤ seg.length) (hp3 : segByte seg 4 ≠ 0)
      (hfits : seg.length ≤ 5 + segByte seg 4) :
      CaseRow seg ⟨.case3, segByte seg 4, 0, false, 5, seg.length - 5⟩
  | dataLe (hp3 : segByte seg 4 ≠ 0) (hlen : seg.length = 6 + segByte seg 4) :
      CaseRow seg ⟨.case4, segByte seg 4, leShort (segByte seg (seg.length - 1)), false, 5,
        segByte seg 4⟩
  | extLe (hp3 : segByte seg 4 = 0) (hlen : seg.length = 7) :
      CaseRow seg ⟨.case2, 0, leExt (segLen seg 5), true, 7, 0⟩
  | extData (hp3 : segByte seg 4 = 0) (hlen : 8 ≤ seg.length)
      (hfits : seg.length ≤ 7 + segLen seg 5) :
      CaseRow seg ⟨.case3, segLen seg 5, 0, true, 7, seg.length - 7⟩
  | extDataLe (hp3 : segByte seg 4 = 0) (hlen : seg.length = 9 + segLen seg 5) :
      CaseRow seg ⟨.case4, segLen seg 5, leExt (segLen seg (seg.length - 2)), true, 7,
        segLen seg 5⟩

theorem classifyCase_tooShort (h : seg.length < 4) :
    classifyCase seg = .malformed .tooShort := by
  simp only [classifyCase, if_pos h]

theorem classifyCase_four (h : seg.length = 4) :
    classifyCase seg = .case ⟨.case1, 0, 0, false, 4, 0⟩ := by
  simp [classifyCase, h]

theorem classifyCase_five (h : seg.length = 5) :
    classifyCase seg = .case ⟨.case2, 0, leShort (segByte seg 4), false, 5, 0⟩ := by
  simp [classifyCase, h]

theorem classifyCase_six (h : seg.length = 6) : classifyCase seg
    = .case ⟨.case3, segByte seg 4, 0, false, 5, min 1 (segByte seg 4)⟩ := by
  simp [classifyCase, h]

/-- From seven bytes on, P3 tells the short form from the extended one (rule R290). -/
theorem classifyCase_seven (h : 7 ≤ seg.length) :
    classifyCase seg =
      if segByte seg 4 ≠ 0 then
        if seg.length ≤ 5 + segByte seg 4 then
          .case ⟨.case3, segByte seg 4, 0, false, 5, seg.length - 5⟩
        else if seg.length = 6 + segByte seg 4 then
          .case ⟨.case4, segByte seg 4, leShort (segByte seg (seg.length - 1)), false, 5,
            segByte seg 4⟩
        else .malformed .lengthMismatch
      else classifyExt seg := by
  simp only [classifyCase, if_neg (show ¬ seg.length < 4 by omega),
    if_neg (show ¬ seg.length = 4 by omega), if_neg (show ¬ seg.length = 5 by omega),
    if_neg (show ¬ seg.length = 6 by omega), if_pos (show 5 ≤ seg.length by omega)]

/-- A segment that is classified is of one of the rows. -/
theorem caseRow_of_classifyCase {r : CaseInfo} (h : classifyCase seg = .case r) :
    CaseRow seg r := by
  obtain hlen | hlen | hlen | hlen | hlen : seg.length < 4 ∨ seg.length = 4 ∨ seg.length = 5
      ∨ seg.length = 6 ∨ 7 ≤ seg.length := by omega
  · rw [classifyCase_tooShort hlen] at h
    cases h
  · rw [classifyCase_four hlen] at h
    obtain rfl := CaseResult.case.inj h
    exact .header hlen
  · rw [classifyCase_five hlen] at h
    obtain rfl := CaseResult.case.inj h
    exact .le hlen
  · rw [classifyCase_six hlen] at h
    obtain rfl := CaseResult.case.inj h
    exact .oneByte hlen
  · rw [classifyCase_seven hlen] at h
    unfold classifyExt at h
    simp only at h
    split_ifs at h with hp3 hfits hle hseven _ hfits hle <;> obtain rfl := CaseResult.case.inj h
    · exact .data hlen hp3 hfits
    · exact .dataLe hp3 hle
    · exact .extLe (not_not.mp hp3) hseven
    · exact .extData (not_not.mp hp3) (by omega) hfits
    · exact .extDataLe (not_not.mp hp3) hle

end

/-! ### The length fields spell the segment's own bytes (rule R296) -/

section
variable (seg : List Byte) (k : Nat)

theorem lowByte_segByte : lowByte (BitVec.ofNat 32 (segByte seg k)) = seg.getD k 0#8 := by
  have hlt := segByte_lt seg k
  apply BitVec.eq_of_toNat_eq
  simp only [lowByte, field_toNat, BitVec.toNat_ofNat]
  unfold segByte at hlt ⊢
  omega

/-- A length of two bytes, or another number that ends in the same two bytes. -/
theorem bytes_of_segLen {v : Nat} (hv : v % 65536 = segLen seg k) :
    highByte (BitVec.ofNat 32 v) = seg.getD k 0#8
      ∧ lowByte (BitVec.ofNat 32 v) = seg.getD (k + 1) 0#8 := by
  have hhigh := segByte_lt seg k
  have hlow := segByte_lt seg (k + 1)
  unfold segLen at hv
  unfold segByte at hv hhigh hlow
  constructor <;> apply BitVec.eq_of_toNat_eq <;>
    simp only [highByte, lowByte, field_toNat, BitVec.toNat_ofNat] <;> omega

/-- Le 256 is written 0 (rule R292). -/
theorem lowByte_leShort : lowByte (BitVec.ofNat 32 (leShort (segByte seg k))) = seg.getD k 0#8 := by
  unfold leShort
  split_ifs with hzero
  · have hbyte : seg.getD k 0#8 = 0#8 := BitVec.eq_of_toNat_eq hzero
    rw [hbyte]
    rfl
  · exact lowByte_segByte seg k

/-- Le 65536 is written 0 (rule R292). -/
theorem leExt_mod : leExt (segLen seg k) % 65536 = segLen seg k := by
  have hlt := segLen_lt seg k
  unfold leExt
  split_ifs <;> omega

theorem lengthField_segByte :
    lengthField false (BitVec.ofNat 32 (segByte seg 4)) = [seg.getD 4 0#8] := by
  rw [← lowByte_segByte seg 4]
  rfl

theorem lengthField_leShort :
    lengthField false (BitVec.ofNat 32 (leShort (segByte seg 4))) = [seg.getD 4 0#8] := by
  rw [← lowByte_leShort seg 4]
  rfl

theorem trailingLe_leShort :
    trailingLe false (BitVec.ofNat 32 (leShort (segByte seg k))) = [seg.getD k 0#8] := by
  rw [← lowByte_leShort seg k]
  rfl

/-- The extended length field, behind a P3 of 0 (rule R290). -/
theorem lengthField_ext {seg : List Byte} {v : Nat} (hp3 : segByte seg 4 = 0)
    (hv : v % 65536 = segLen seg 5) :
    lengthField true (BitVec.ofNat 32 v) = [seg.getD 4 0#8, seg.getD 5 0#8, seg.getD 6 0#8] := by
  have hzero : seg.getD 4 0#8 = 0x00#8 := BitVec.eq_of_toNat_eq hp3
  obtain ⟨hhigh, hlow⟩ := bytes_of_segLen seg 5 hv
  rw [hzero, ← hhigh, ← hlow]
  rfl

theorem trailingLe_leExt :
    trailingLe true (BitVec.ofNat 32 (leExt (segLen seg k)))
      = [seg.getD k 0#8, seg.getD (k + 1) 0#8] := by
  obtain ⟨hhigh, hlow⟩ := bytes_of_segLen seg k (leExt_mod seg k)
  rw [← hhigh, ← hlow]
  rfl

end

/-! ### A segment, byte by byte -/

section
variable {seg : List Byte}

theorem drop_eq_getD_cons {k : Nat} (h : k < seg.length) :
    seg.drop k = seg.getD k 0#8 :: seg.drop (k + 1) := by
  rw [List.drop_eq_getElem_cons h, List.getD_eq_getElem _ _ h]

/-- The four header bytes (rule R296). -/
def hdr4 (seg : List Byte) : List Byte :=
  [seg.getD 0 0#8, seg.getD 1 0#8, seg.getD 2 0#8, seg.getD 3 0#8]

theorem seg_eq_header (h : 4 ≤ seg.length) : seg = hdr4 seg ++ seg.drop 4 := by
  calc seg = seg.drop 0 := List.drop_zero.symm
    _ = _ := by
      rw [drop_eq_getD_cons (k := 0) (by omega), drop_eq_getD_cons (k := 1) (by omega),
        drop_eq_getD_cons (k := 2) (by omega), drop_eq_getD_cons (k := 3) (by omega)]
      rfl

/-- The short form: header, P3, and the rest. -/
theorem seg_eq_short (h : 5 ≤ seg.length) :
    seg = hdr4 seg ++ [seg.getD 4 0#8] ++ seg.drop 5 := by
  have hseg := seg_eq_header (seg := seg) (by omega)
  rwa [drop_eq_getD_cons (k := 4) (by omega)] at hseg

/-- The extended form: header, P3 and two length bytes, and the rest. -/
theorem seg_eq_ext (h : 7 ≤ seg.length) :
    seg = hdr4 seg ++ [seg.getD 4 0#8, seg.getD 5 0#8, seg.getD 6 0#8] ++ seg.drop 7 := by
  have hseg := seg_eq_short (seg := seg) (by omega)
  rwa [drop_eq_getD_cons (k := 5) (by omega), drop_eq_getD_cons (k := 6) (by omega)] at hseg

/-- What follows the length field is the data and one byte of Le. -/
theorem drop_eq_take_append_one {off n : Nat} (h : seg.length = off + n + 1) :
    seg.drop off = (seg.drop off).take n ++ [seg.getD (seg.length - 1) 0#8] := by
  have hlast : seg.drop (off + n) = [seg.getD (off + n) 0#8] := by
    rw [drop_eq_getD_cons (by omega), List.drop_eq_nil_of_le (by omega)]
  have hindex : seg.length - 1 = off + n := by omega
  rw [hindex, ← hlast, ← List.drop_drop, List.take_append_drop]

/-- What follows the length field is the data and two bytes of Le. -/
theorem drop_eq_take_append_two {off n : Nat} (h : seg.length = off + n + 2) :
    seg.drop off = (seg.drop off).take n
      ++ [seg.getD (seg.length - 2) 0#8, seg.getD (seg.length - 2 + 1) 0#8] := by
  have hlast : seg.drop (off + n) = [seg.getD (off + n) 0#8, seg.getD (off + n + 1) 0#8] := by
    rw [drop_eq_getD_cons (by omega), drop_eq_getD_cons (by omega),
      List.drop_eq_nil_of_le (by omega)]
  have hindex : seg.length - 2 = off + n := by omega
  rw [hindex, ← hlast, ← List.drop_drop, List.take_append_drop]

end

/-! ### Continuation segments that bring no more than is owed (rule R294) -/

section
variable {c : ApduCtx} {seg : List Byte}

theorem contCtx_of_owed (h : seg.length ≤ c.lc.tot.toNat - c.lc.cur.toNat) :
    contCtx seg c = { c with
      dc := c.dc ++ seg, lc := ⟨c.lc.cur + BitVec.ofNat 32 seg.length, c.lc.tot⟩ } := by
  simp only [contCtx, Nat.min_eq_left h, List.take_length]

/-- Counting `n` bytes of those owed does not overflow. -/
theorem toNat_add_owed {cur tot : Word} {n : Nat} (h : n ≤ tot.toNat - cur.toNat) :
    (cur + BitVec.ofNat 32 n).toNat = cur.toNat + n := by
  have htot := tot.isLt
  have hcur := cur.isLt
  rw [BitVec.toNat_add, BitVec.toNat_ofNat]
  omega

/-- Segment after segment joins the data, by induction on the segments. -/
theorem foldl_contCtx (parts : List (List Byte)) (c : ApduCtx)
    (h : parts.flatten.length ≤ c.lc.tot.toNat - c.lc.cur.toNat) :
    parts.foldl (fun c x => contCtx x c) c = { c with
      dc := c.dc ++ parts.flatten
      lc := ⟨c.lc.cur + BitVec.ofNat 32 parts.flatten.length, c.lc.tot⟩ } := by
  induction parts generalizing c with
  | nil => simp
  | cons x parts ih =>
    rw [List.flatten_cons, List.length_append] at h
    have hx : x.length ≤ c.lc.tot.toNat - c.lc.cur.toNat := by omega
    have hrest : parts.flatten.length
        ≤ c.lc.tot.toNat - (c.lc.cur + BitVec.ofNat 32 x.length).toNat := by
      rw [toNat_add_owed hx]
      omega
    rw [List.foldl_cons, contCtx_of_owed hx, ih _ hrest]
    simp only [List.flatten_cons, List.append_assoc, List.length_append, BitVec.ofNat_add,
      BitVec.add_assoc]

end

/-! ### The command APDU, row by row -/

section
variable {seg : List Byte} {r : CaseInfo}

/-- The context of a new segment with the data `rest` added to it. -/
def newCtxWith (seg : List Byte) (r : CaseInfo) (cur : Word) (rest : List Byte) : ApduCtx :=
  { newCtx seg r with
    dc := (newCtx seg r).dc ++ rest, lc := ⟨cur, BitVec.ofNat 32 r.lcTot⟩ }

/-- What the parts bring joins the data of the first segment. -/
theorem foldl_contCtx_newCtx {parts : List (List Byte)} (hfits : r.Fits seg)
    (h : parts.flatten.length = r.lcTot - min r.avail r.lcTot) :
    ∃ cur, parts.foldl (fun c x => contCtx x c) (newCtx seg r)
      = newCtxWith seg r cur parts.flatten := by
  have hlc : r.lcTot ≤ 65535 := hfits.lc
  refine ⟨_, foldl_contCtx parts (newCtx seg r) ?_⟩
  simp only [newCtx, toNat_ofNat_word (show r.lcTot ≤ 65536 by omega),
    toNat_ofNat_word (show min r.avail r.lcTot ≤ 65536 by omega)]
  omega

/-- The rows whose data is all in the segment are completed by nothing more. -/
theorem rest_eq_nil {rest : List Byte} (havail : r.lcTot ≤ r.avail)
    (hrest : rest.length = r.lcTot - min r.avail r.lcTot) : rest = [] := by
  rw [Nat.min_eq_right havail, Nat.sub_self] at hrest
  exact List.length_eq_zero_iff.mp hrest

theorem capdu_case2 {leTot lcTot off avail : Nat} {ext : Bool} {cur : Word} {rest : List Byte} :
    capdu (newCtxWith seg ⟨.case2, lcTot, leTot, ext, off, avail⟩ cur rest) ext
      = some (hdr4 seg ++ lengthField ext (BitVec.ofNat 32 leTot)) := rfl

theorem capdu_case3 {leTot lcTot off avail : Nat} {ext : Bool} {cur : Word} {rest : List Byte} :
    capdu (newCtxWith seg ⟨.case3, lcTot, leTot, ext, off, avail⟩ cur rest) ext
      = some (hdr4 seg ++ lengthField ext (BitVec.ofNat 32 lcTot)
          ++ ((seg.drop off).take (min avail lcTot) ++ rest)) := rfl

theorem capdu_case4 {leTot lcTot off avail : Nat} {ext : Bool} {cur : Word} {rest : List Byte} :
    capdu (newCtxWith seg ⟨.case4, lcTot, leTot, ext, off, avail⟩ cur rest) ext
      = some (hdr4 seg ++ lengthField ext (BitVec.ofNat 32 lcTot)
          ++ ((seg.drop off).take (min avail lcTot) ++ rest)
          ++ trailingLe ext (BitVec.ofNat 32 leTot)) := rfl

/-- A segment that holds no more data than is announced is all taken. -/
theorem take_all_data {off n : Nat} (h : seg.length - off ≤ n) :
    (seg.drop off).take n = seg.drop off := by
  rw [List.take_of_length_le (by rwa [List.length_drop])]

/-- A short segment that ends within its data. -/
theorem capdu_shortData {leTot avail : Nat} {cur : Word} {rest : List Byte} (hlen : 5 ≤ seg.length)
    (hall : seg.length - 5 ≤ min avail (segByte seg 4)) :
    capdu (newCtxWith seg ⟨.case3, segByte seg 4, leTot, false, 5, avail⟩ cur rest) false
      = some (seg ++ rest) := by
  have hseg := seg_eq_short hlen
  rw [← lengthField_segByte] at hseg
  rw [capdu_case3, take_all_data hall, ← List.append_assoc]
  exact congrArg (fun x => some (x ++ rest)) hseg.symm

/-- Every row but that of six bytes with P3 = 0: the length fields and the data put together are the
segment and what was added (rule R296). -/
theorem capdu_newCtxWith (row : CaseRow seg r) (hsix : ¬ (seg.length = 6 ∧ seg.getD 4 0#8 = 0))
    {cur : Word} {rest : List Byte} (hrest : rest.length = r.lcTot - min r.avail r.lcTot) :
    capdu (newCtxWith seg r cur rest) r.ext = some (seg ++ rest) := by
  cases row with
  | header hlen =>
    have hseg := seg_eq_header (seg := seg) (by omega)
    rw [List.drop_eq_nil_of_le (by omega)] at hseg
    rw [rest_eq_nil (Nat.le_refl 0) hrest, List.append_nil]
    exact congrArg some hseg.symm
  | le hlen =>
    have hseg := seg_eq_short (seg := seg) (by omega)
    rw [List.drop_eq_nil_of_le (by omega), List.append_nil, ← lengthField_leShort] at hseg
    rw [rest_eq_nil (Nat.le_refl 0) hrest, List.append_nil, capdu_case2]
    exact congrArg some hseg.symm
  | oneByte hlen =>
    have hp3 : segByte seg 4 ≠ 0 := fun hzero => hsix ⟨hlen, BitVec.eq_of_toNat_eq hzero⟩
    exact capdu_shortData (by omega) (by omega)
  | data hlen hp3 hfits =>
    exact capdu_shortData (by omega) (by omega)
  | dataLe hp3 hlen =>
    have hseg := seg_eq_short (seg := seg) (by omega)
    rw [drop_eq_take_append_one (n := segByte seg 4) (by omega), ← lengthField_segByte,
      ← trailingLe_leShort seg (seg.length - 1), ← List.append_assoc] at hseg
    rw [rest_eq_nil (Nat.le_refl _) hrest, List.append_nil, capdu_case4, Nat.min_self,
      List.append_nil]
    exact congrArg some hseg.symm
  | extLe hp3 hlen =>
    have hseg := seg_eq_ext (seg := seg) (by omega)
    rw [List.drop_eq_nil_of_le (by omega), List.append_nil, ← lengthField_ext hp3 (leExt_mod seg 5)]
      at hseg
    rw [rest_eq_nil (Nat.le_refl 0) hrest, List.append_nil, capdu_case2]
    exact congrArg some hseg.symm
  | extData hp3 hlen hfits =>
    have hseg := seg_eq_ext (seg := seg) (by omega)
    rw [← lengthField_ext hp3 (Nat.mod_eq_of_lt (segLen_lt seg 5))] at hseg
    rw [capdu_case3, take_all_data (by omega), ← List.append_assoc]
    exact congrArg (fun x => some (x ++ rest)) hseg.symm
  | extDataLe hp3 hlen =>
    have hseg := seg_eq_ext (seg := seg) (by omega)
    rw [drop_eq_take_append_two (n := segLen seg 5) (by omega),
      ← lengthField_ext hp3 (Nat.mod_eq_of_lt (segLen_lt seg 5)), ← trailingLe_leExt seg
      (seg.length - 2), ← List.append_assoc] at hseg
    rw [rest_eq_nil (Nat.le_refl _) hrest, List.append_nil, capdu_case4, Nat.min_self,
      List.append_nil]
    exact congrArg some hseg.symm

end

/-- Settles O56: the parts join the data of the first segment, and every row writes out what it was
read from. -/
theorem forwardedCommandIsTheSegments : Obligations.ForwardedCommandIsTheSegments := by
  unfold Obligations.ForwardedCommandIsTheSegments
  intro seg r parts hcase hsix howed
  obtain ⟨cur, hctx⟩ := foldl_contCtx_newCtx (classifyCase_fits hcase) howed
  rw [hctx]
  exact capdu_newCtxWith (caseRow_of_classifyCase hcase) hsix howed

end Sys2Proof.Machine

/-! ## The discriminator's query and the bridge's events (rules R290 to R299) -/

namespace Sys2Proof.Machine

/-! ### The case discriminator (rules R290, R291) -/

section
variable {seg : List Byte}

/-- The extended form of more than seven bytes, branch by branch (rule R290). -/
theorem classifyExt_of_long (h : 8 ≤ seg.length) :
    (segLen seg 5 = 0 → classifyExt seg = .malformed .zeroLc)
    ∧ (segLen seg 5 ≠ 0 → seg.length ≤ 7 + segLen seg 5 →
        classifyExt seg = .case ⟨.case3, segLen seg 5, 0, true, 7, seg.length - 7⟩)
    ∧ (segLen seg 5 ≠ 0 → seg.length = 9 + segLen seg 5 →
        classifyExt seg = .case ⟨.case4, segLen seg 5, leExt (segLen seg (seg.length - 2)), true, 7,
          segLen seg 5⟩)
    ∧ (segLen seg 5 ≠ 0 → seg.length = 8 + segLen seg 5 ∨ 9 + segLen seg 5 < seg.length →
        classifyExt seg = .malformed .lengthMismatch) := by
  have hseven : ¬ seg.length = 7 := by omega
  simp only [classifyExt, if_neg hseven]
  refine ⟨fun hlc => if_pos hlc, fun hlc hfits => ?_, fun hlc hle => ?_, fun hlc hbad => ?_⟩
  · rw [if_neg hlc, if_pos hfits]
  · rw [if_neg hlc, if_neg (by omega), if_pos hle]
  · rw [if_neg hlc, if_neg (by omega), if_neg (by omega)]

/-- The last two bytes as a length. -/
theorem segLen_last (h : 2 ≤ seg.length) :
    segLen seg (seg.length - 2)
      = (seg.getD (seg.length - 2) 0#8).toNat * 256 + (seg.getD (seg.length - 1) 0#8).toNat := by
  have hlast : seg.length - 2 + 1 = seg.length - 1 := by omega
  rw [segLen, hlast]
  rfl

end

/-- Settles O49: the port answers the discriminator, whose rows are taken length by length. -/
theorem segmentIsClassifiedByItsLength : Obligations.SegmentIsClassifiedByItsLength := by
  unfold Obligations.SegmentIsClassifiedByItsLength
  intro s seg hfault
  refine ⟨classifyCase seg, seg.length, segByte seg 4, segLen seg 5,
    answerQuery_live hfault fun _ => .apduCase (classifyCase seg), rfl, rfl, rfl,
    classifyCase_tooShort, classifyCase_four, classifyCase_five, classifyCase_six,
    fun hlen hp3 => ?short, fun hlen hp3 => ?extLe, fun hlen hp3 => ?ext⟩
  case short =>
    rw [classifyCase_seven hlen, if_pos hp3]
    refine ⟨fun hfits => if_pos hfits, fun hle => ?_, fun hbad => ?_⟩
    · rw [if_neg (by omega), if_pos hle]
      rfl
    · rw [if_neg (by omega), if_neg (by omega)]
  case extLe =>
    rw [classifyCase_seven hlen.ge, if_neg (not_not.mpr hp3), classifyExt, if_pos hlen]
    rfl
  case ext =>
    rw [classifyCase_seven (by omega), if_neg (not_not.mpr hp3), ← segLen_last (by omega)]
    exact classifyExt_of_long hlen

/-! ### A bridge event on a slot whose bridge runs (rules R295, R299) -/

section
variable {s t : State} {b : Bridge}

/-- The event is its rule. -/
theorem bridgeEvent_done {rule : State → Effect} (hfault : s.fault = none)
    (hfatal : s.bridge.fatal = false) (h : rule s = .done t) : bridgeEvent rule s = .next t := by
  rw [bridgeEvent, whenBridgeLive_live s _ hfault hfatal, h, settle]

/-- Data is owed: it is asked for (rule R295). -/
theorem bridgeDispatch_rxMore (h : b.ctx.lc.cur.toNat < b.ctx.lc.tot.toNat) :
    bridgeDispatch { s with bridge := b }
      = .done (afterBridge s b [.rxMore (b.ctx.lc.tot - b.ctx.lc.cur)]) := by
  simp only [bridgeDispatch, if_pos h]
  rfl

/-- Nothing is owed and nothing was forwarded: the command is (rule R295). -/
theorem bridgeDispatch_txToCard (h : ¬ b.ctx.lc.cur.toNat < b.ctx.lc.tot.toNat)
    (hfwd : b.forwarded = false) {x : List Byte} (hx : capdu b.ctx b.ext = some x) :
    bridgeDispatch { s with bridge := b }
      = .done (afterBridge s { b with forwarded := true } [.txToCard x]) := by
  simp only [bridgeDispatch, if_neg h, if_pos hfwd, hx]
  rfl

/-- The card has answered: the APDU is complete (rule R295). -/
theorem bridgeDispatch_complete (h : ¬ b.ctx.lc.cur.toNat < b.ctx.lc.tot.toNat)
    (hfwd : b.forwarded = true) {sw1 sw2 : Byte} (hsw0 : b.ctx.sw0 = some sw1)
    (hsw1 : b.ctx.sw1 = some sw2) :
    bridgeDispatch { s with bridge := b }
      = .done (afterBridge s b [.complete sw1 sw2 b.ctx.de]) := by
  simp only [bridgeDispatch, if_neg h, hfwd, hsw0, hsw1]
  rfl

end

/-! ### A new segment (rule R293) -/

/-- The header of the context is the segment's first bytes; a segment of four has no P3 (rule
R293). -/
theorem newCtx_eq (seg : List Byte) (r : CaseInfo) :
    newCtx seg r = ⟨⟨seg.getD 0 0#8, seg.getD 1 0#8, seg.getD 2 0#8, seg.getD 3 0#8,
        seg.getD 4 0#8⟩, r.c,
      ⟨BitVec.ofNat 32 (min r.avail r.lcTot), BitVec.ofNat 32 r.lcTot⟩, ⟨0, BitVec.ofNat 32 r.leTot⟩,
      (seg.drop r.off).take (min r.avail r.lcTot), [], none, none⟩ := by
  have hp3 : (if 5 ≤ seg.length then seg.getD 4 0#8 else 0#8) = seg.getD 4 0#8 := by
    split_ifs with hlen
    · rfl
    · rw [List.getD_eq_default _ _ (by omega)]
  simp only [newCtx, hp3]
  rfl

/-- Settles O51: the discriminator decides, and the dispatch of the new context looks at its counts. -/
theorem newSegmentStartsTheApdu : Obligations.NewSegmentStartsTheApdu := by
  unfold Obligations.NewSegmentStartsTheApdu
  intro s seg hfault hfatal
  have hdone {t : State} (h : segNew seg s = .done t) : exec (.apduSegNew seg) s = .next t :=
    bridgeEvent_done hfault hfatal h
  refine ⟨fun h => ?_, fun h => ?_, fun h => ?_, fun r hr => ?_⟩
  · exact hdone (by rw [segNew, h]; rfl)
  · exact hdone (by rw [segNew, h]; rfl)
  · exact hdone (by rw [segNew, h]; rfl)
  have hfits := classifyCase_fits hr
  have hlc : r.lcTot ≤ 65535 := hfits.lc
  have hmin := Nat.min_le_right r.avail r.lcTot
  have hcur : (newCtx seg r).lc.cur.toNat = min r.avail r.lcTot := toNat_ofNat_word (by omega)
  have htot : (newCtx seg r).lc.tot.toNat = r.lcTot := toNat_ofNat_word (by omega)
  have hrule : segNew seg s = bridgeDispatch { s with bridge :=
      ⟨newCtx seg r, true, false, r.ext, false, s.bridge.prevStatus⟩ } := by
    rw [segNew, hr, ← hfatal]
  refine ⟨_, newCtx seg r, rfl, newCtx_eq seg r, fun howed => ?_, fun hall => ?_⟩
  · rw [← BitVec.ofNat_sub_ofNat_of_le _ _ (by omega) hmin]
    exact hdone (hrule.trans (bridgeDispatch_rxMore (by rwa [hcur, htot])))
  · obtain ⟨x, hx⟩ := capdu_of_classified (c := newCtx seg r) r.ext hfits.classified
    exact ⟨x, hx, hdone (hrule.trans (bridgeDispatch_txToCard (by rw [hcur, htot]; omega) rfl hx))⟩

/-! ### A continuation segment (rule R294) -/

section
variable {s : State} {seg : List Byte}

theorem contOwed_eq_false {b : Bridge} : contOwed b = false ↔
    b.valid = false ∨ b.forwarded = true ∨ b.ctx.lc.tot.toNat - b.ctx.lc.cur.toNat = 0 := by
  cases hvalid : b.valid <;> cases hfwd : b.forwarded <;>
    simp [contOwed, hvalid, hfwd, Nat.sub_eq_zero_iff_le]

/-- The counter as the number of bytes there now are. -/
theorem contCtx_eq (seg : List Byte) (c : ApduCtx) :
    contCtx seg c = { c with
      dc := c.dc ++ seg.take (min seg.length (c.lc.tot.toNat - c.lc.cur.toNat))
      lc := ⟨BitVec.ofNat 32
        (c.lc.cur.toNat + min seg.length (c.lc.tot.toNat - c.lc.cur.toNat)), c.lc.tot⟩ } := by
  rw [BitVec.ofNat_add, BitVec.ofNat_toNat, BitVec.setWidth_eq]
  rfl

/-- Bytes that are owed are counted without overflow, and the rest is still owed. -/
theorem owed_count {cur tot : Word} {n : Nat} (h : n ≤ tot.toNat - cur.toNat)
    (hle : cur.toNat ≤ tot.toNat) :
    (BitVec.ofNat 32 (cur.toNat + n)).toNat = cur.toNat + n
      ∧ tot - BitVec.ofNat 32 (cur.toNat + n) = BitVec.ofNat 32 (tot.toNat - cur.toNat - n) := by
  have htot := tot.isLt
  constructor
  · rw [BitVec.toNat_ofNat, Nat.mod_eq_of_lt (by omega)]
  · rw [Nat.sub_sub, ← BitVec.ofNat_sub_ofNat_of_le _ _ (by omega) (by omega), BitVec.ofNat_toNat,
      BitVec.setWidth_eq]

/-- A segment that is owed is dispatched with its data (rule R294). -/
theorem segCont_of_owed (hvalid : s.bridge.valid = true) (hfwd : s.bridge.forwarded = false)
    (howed : s.bridge.ctx.lc.tot.toNat - s.bridge.ctx.lc.cur.toNat ≠ 0) :
    segCont seg s
      = bridgeDispatch { s with bridge := { s.bridge with ctx := contCtx seg s.bridge.ctx } } := by
  have hopen : ¬ contOwed s.bridge = false := by
    rw [contOwed_eq_false, hvalid, hfwd]
    simpa using howed
  rw [segCont, if_neg hopen]

end

/-- Settles O52: a segment that is owed extends the context, and the dispatch looks at what is left. -/
theorem continuationSegmentAddsData : Obligations.ContinuationSegmentAddsData := by
  unfold Obligations.ContinuationSegmentAddsData
  intro s seg hfault hfatal
  have hdone {t : State} (h : segCont seg s = .done t) : exec (.apduSegCont seg) s = .next t :=
    bridgeEvent_done hfault hfatal h
  refine ⟨s.bridge.ctx, _, _, rfl, rfl, rfl, fun hnone => ?_, fun hvalid hfwd hpart => ?_,
    fun hvalid hfwd howed hall hclass => ?_⟩
  · exact hdone (if_pos (contOwed_eq_false.mpr hnone))
  · obtain ⟨hcur, hleft⟩ := owed_count (Nat.min_le_right seg.length _)
      (show s.bridge.ctx.lc.cur.toNat ≤ s.bridge.ctx.lc.tot.toNat by omega)
    have hrule := segCont_of_owed (seg := seg) hvalid hfwd (by omega)
    rw [contCtx_eq] at hrule
    rw [← hleft]
    exact hdone (hrule.trans (bridgeDispatch_rxMore (by simp only [hcur]; omega)))
  · have hrule := segCont_of_owed (seg := seg) hvalid hfwd howed
    have htot : s.bridge.ctx.lc.cur.toNat
        + (s.bridge.ctx.lc.tot.toNat - s.bridge.ctx.lc.cur.toNat)
        = s.bridge.ctx.lc.tot.toNat := by omega
    rw [contCtx_eq, hall, htot, BitVec.ofNat_toNat, BitVec.setWidth_eq] at hrule
    rw [hall]
    obtain ⟨x, hx⟩ := capdu_of_classified s.bridge.ext (c := { s.bridge.ctx with
      dc := s.bridge.ctx.dc
        ++ seg.take (s.bridge.ctx.lc.tot.toNat - s.bridge.ctx.lc.cur.toNat)
      lc := ⟨s.bridge.ctx.lc.tot, s.bridge.ctx.lc.tot⟩ }) hclass
    refine ⟨x, hx, hdone (hrule.trans (bridgeDispatch_txToCard ?_ ?_ hx))⟩
    · exact lt_irrefl _
    · exact hfwd

/-! ### The real card's answer (rule R297) -/

/-- The last two bytes of the answer are the status word, and the data is cut to Le (rule R297). -/
theorem respCtx_append (x : List Byte) (sw1 sw2 : Byte) (c : ApduCtx) :
    respCtx (x ++ [sw1, sw2]) c = { c with
      de := x.take (min x.length c.le.tot.toNat)
      le := { c.le with cur := BitVec.ofNat 32 (min x.length c.le.tot.toNat) }
      sw0 := some sw1, sw1 := some sw2 } := by
  have hlen : (x ++ [sw1, sw2]).length - 2 = x.length := by simp
  have hlast : (x ++ [sw1, sw2]).length - 1 = x.length + 1 := by simp
  simp only [respCtx, hlen, hlast]
  rw [List.take_append_of_le_length (Nat.min_le_left _ _), List.getElem?_append_right (by omega),
    List.getElem?_append_right (by omega), Nat.sub_self, Nat.add_sub_cancel_left]
  rfl

/-- Settles O53: the answer is rejected, or completes the context it is stored in. -/
theorem cardAnswerCompletesTheApdu : Obligations.CardAnswerCompletesTheApdu := by
  unfold Obligations.CardAnswerCompletesTheApdu
  intro s r hfault hfatal
  have hdone {t : State} (h : cardAnswer r s = .done t) : exec (.cardResp r) s = .next t :=
    bridgeEvent_done hfault hfatal h
  refine ⟨fun hshort => ?_, fun hlen hnone => ?_, ?_⟩
  · exact hdone (if_pos hshort)
  · have hunexpected :
        (s.bridge.valid && s.bridge.forwarded) = false ∨ s.bridge.ctx.sw0 ≠ none := by
      rwa [Bool.and_eq_false_iff, or_assoc]
    exact hdone ((if_neg (by omega)).trans (if_pos hunexpected))
  · rintro x sw1 sw2 rfl hvalid hfwd hsw0 hall
    refine ⟨_, rfl, ?_⟩
    have hrule : cardAnswer (x ++ [sw1, sw2]) s = bridgeDispatch { s with
        bridge := { s.bridge with ctx := respCtx (x ++ [sw1, sw2]) s.bridge.ctx } } := by
      simp [cardAnswer, hvalid, hfwd, hsw0]
    rw [respCtx_append] at hrule
    refine hdone (hrule.trans (bridgeDispatch_complete ?_ ?_ rfl rfl))
    · exact Nat.not_lt.mpr hall
    · exact hfwd

/-! ### A status report (rule R298) -/

/-- Settles O54: the report is one write of the bridge with the record of its trigger. -/
theorem statusReportTriggersCardReset : Obligations.StatusReportTriggersCardReset := by
  unfold Obligations.StatusReportTriggersCardReset
  intro s f hfault hfatal
  refine ⟨_, _, _, rfl, rfl, rfl, ?_⟩
  refine (bridgeEvent_done (rule := fun s => .done (statusReport f s)) hfault hfatal rfl).trans ?_
  rw [statusReport_eq, resetTrigger]
  split_ifs <;> rfl

end Sys2Proof.Machine

/-! ## The receiver of the wire boundary (rules R70, R300 to R303, R344) -/

namespace Sys2Proof.Machine

/-! ### One turn of the receiver (rule R301) -/

section
variable {w : WireParams} {c : WireCodec w} {r : Receiver} {m : WireMsg}

theorem rxView_eq_wait {rb : List Byte} : rxView w rb = .wait ↔
    rb.length < headerSize w ∨ headerSize w ≤ msgLen w rb ∧ rb.length < msgLen w rb := by
  unfold rxView
  simp only
  split_ifs with hshort hbad hpart
  · simp [hshort]
  · simp [hshort, hbad]
  · simp [hpart, Nat.not_lt.mp hbad]
  · simp [hshort, hpart]

theorem rxTurn_eq_none : rxTurn w c r = none ↔ rxView w r.rb = .wait := by
  unfold rxTurn
  cases rxView w r.rb with
  | wait => simp
  | badLen => simp
  | message m rest =>
    simp only
    split <;> simp

theorem rxTurn_badLen (hheader : headerSize w ≤ r.rb.length) (hbad : msgLen w r.rb < headerSize w) :
    rxTurn w c r
      = some { r with rb := [], slots := reportTo (r.rb.getD 2 0#8) .badMsgLen r.slots } := by
  have hview : rxView w r.rb = .badLen := by
    simp only [rxView, if_neg (Nat.not_lt.mpr hheader), if_pos hbad]
  rw [rxTurn, hview]

theorem rxTurn_rejected {rest : List Byte} {e : TransportErr} (hrb : r.rb = msgBytes w m ++ rest)
    (hlen : headerSize w + m.payload.length ≤ maxMsgLen w) (hcheck : checkMsg w m = .rejected e) :
    rxTurn w c r = some { r with rb := rest, slots := reportTo m.slot e r.slots } := by
  simp only [rxTurn, hrb, rxView_msgBytes w m rest hlen, hcheck]

theorem rxTurn_accepted {rest : List Byte} {kind : WireType} (hrb : r.rb = msgBytes w m ++ rest)
    (hlen : headerSize w + m.payload.length ≤ maxMsgLen w) (hcheck : checkMsg w m = .accepted kind) :
    rxTurn w c r = some { r with
      rb := rest, accepted := r.accepted ++ [(kind, m)]
      slots := acceptMsg w c r.dir kind m r.slots } := by
  simp only [rxTurn, hrb, rxView_msgBytes w m rest hlen, hcheck]

/-- On less than a whole message the receiver waits: it has less than a header, or reads the message's
length from the header. -/
theorem rxView_partial {x y rest : List Byte} (hbytes : x ++ y = msgBytes w m ++ rest)
    (hlen : headerSize w + m.payload.length ≤ maxMsgLen w)
    (hpart : x.length < (msgBytes w m).length) : rxView w x = .wait := by
  rw [rxView_eq_wait]
  by_cases hheader : x.length < headerSize w
  · exact .inl hheader
  · have hmsg : msgLen w x = headerSize w + m.payload.length := by
      rw [← msgLen_append w x y (Nat.not_lt.mp hheader), hbytes, msgLen_msgBytes w m rest hlen]
    rw [msgBytes_length] at hpart
    exact .inr ⟨by omega, by omega⟩

end

/-! ### A stream of acceptable messages -/

section
variable {w : WireParams} {c : WireCodec w}

/-- A message the receiver accepts, of the kind it is listed with (rule R303). -/
def Acceptable (w : WireParams) (m : WireType × WireMsg) : Prop :=
  headerSize w + m.2.payload.length ≤ maxMsgLen w ∧ checkMsg w m.2 = .accepted m.1

/-- The messages one after another (rule R300). -/
def streamBytes (w : WireParams) (ms : List (WireType × WireMsg)) : List Byte :=
  (ms.map fun m => msgBytes w m.2).flatten

theorem streamBytes_cons (m : WireType × WireMsg) (ms : List (WireType × WireMsg)) :
    streamBytes w (m :: ms) = msgBytes w m.2 ++ streamBytes w ms := rfl

theorem streamBytes_eq_nil {ms : List (WireType × WireMsg)} (h : streamBytes w ms = []) :
    ms = [] := by
  cases ms with
  | nil => rfl
  | cons m ms =>
    have hlen := congrArg List.length h
    have hpos := headerSize_pos w
    rw [streamBytes_cons, List.length_append, msgBytes_length, List.length_nil] at hlen
    omega

/-- The longer of two starts of one list begins with the shorter. -/
theorem exists_eq_append_of_length_le {x y z rest : List Byte} (h : x ++ y = z ++ rest)
    (hle : z.length ≤ x.length) : ∃ left, x = z ++ left ∧ left ++ y = rest := by
  obtain ⟨extra, rfl, rfl⟩ | ⟨left, hx, hrest⟩ := List.append_eq_append_iff.mp h
  · obtain rfl : extra = [] := by simpa using hle
    exact ⟨[], by simp⟩
  · exact ⟨left, hx, hrest.symm⟩

/-- The receiver after it has taken the messages `ms` and has the bytes `rb` left. -/
def taken (c : WireCodec w) (r : Receiver) (ms : List (WireType × WireMsg)) (rb : List Byte) :
    Receiver :=
  { r with
    rb := rb, accepted := r.accepted ++ ms
    slots := ms.foldl (fun ss m => acceptMsg w c r.dir m.1 m.2 ss) r.slots }

theorem taken_nil (r : Receiver) : taken c r [] r.rb = r := by
  rw [taken, List.append_nil]
  rfl

theorem taken_taken (r : Receiver) (ms ms' : List (WireType × WireMsg)) (x y : List Byte) :
    taken c (taken c r ms x) ms' y = taken c r (ms ++ ms') y := by
  simp only [taken, List.append_assoc, List.foldl_append]

theorem rxLoop_of_wait {r : Receiver} (h : rxView w r.rb = .wait) (fuel : Nat) :
    rxLoop w c fuel r = r := by
  cases fuel with
  | zero => rfl
  | succ n => simp only [rxLoop, rxTurn_eq_none.mpr h]

theorem rxLoop_of_turn {r r' : Receiver} (h : rxTurn w c r = some r') {fuel : Nat} :
    rxLoop w c (fuel + 1) r = rxLoop w c fuel r' := by
  simp only [rxLoop, h]

/-- The loop on the start of a stream takes the whole messages in it and keeps the start of the next; it
keeps nothing back when the stream has ended. By induction on the messages. -/
theorem rxLoop_stream (ms : List (WireType × WireMsg)) (hms : ∀ m ∈ ms, Acceptable w m)
    (r : Receiver) (y : List Byte) (hbytes : r.rb ++ y = streamBytes w ms) (fuel : Nat)
    (hfuel : r.rb.length ≤ fuel) :
    ∃ done todo left, ms = done ++ todo ∧ rxLoop w c fuel r = taken c r done left
      ∧ left ++ y = streamBytes w todo ∧ (y = [] → todo = []) := by
  induction ms generalizing r fuel with
  | nil =>
    obtain ⟨hrb, rfl⟩ := List.append_eq_nil_iff.mp hbytes
    have hwait : rxView w r.rb = .wait := by
      rw [hrb, rxView_eq_wait]
      exact .inl (headerSize_pos w)
    exact ⟨[], [], r.rb, rfl, by rw [rxLoop_of_wait hwait, taken_nil], hbytes, fun _ => rfl⟩
  | cons m ms ih =>
    obtain ⟨hlen, hcheck⟩ := hms m List.mem_cons_self
    rw [streamBytes_cons] at hbytes
    by_cases hpart : r.rb.length < (msgBytes w m.2).length
    · have hwait := rxView_partial hbytes hlen hpart
      refine ⟨[], m :: ms, r.rb, rfl, by rw [rxLoop_of_wait hwait, taken_nil], hbytes, ?_⟩
      rintro rfl
      have hlong := congrArg List.length hbytes
      simp only [List.append_nil, List.length_append] at hlong
      omega
    · obtain ⟨x, hx, hrest⟩ := exists_eq_append_of_length_le hbytes (Nat.not_lt.mp hpart)
      have hsize := congrArg List.length hx
      rw [List.length_append, msgBytes_length] at hsize
      have hpos := headerSize_pos w
      obtain ⟨fuel, rfl⟩ : ∃ n, fuel = n + 1 := Nat.exists_eq_add_one.mpr (by omega)
      obtain ⟨done, todo, left, rfl, hloop, hleft, hend⟩ :=
        ih (fun k hk => hms k (List.mem_cons_of_mem m hk)) (taken c r [m] x)
          hrest fuel (by simp only [taken]; omega)
      refine ⟨m :: done, todo, left, rfl, ?_, hleft, hend⟩
      rw [rxLoop_of_turn (rxTurn_accepted hx hlen hcheck)]
      exact hloop.trans (taken_taken r [m] done x left)

/-- Read after read, by induction on the reads. -/
theorem foldl_receive (reads : List (List Byte)) (ms : List (WireType × WireMsg))
    (hms : ∀ m ∈ ms, Acceptable w m) (r : Receiver)
    (hbytes : r.rb ++ reads.flatten = streamBytes w ms) (hend : reads.flatten = [] → ms = []) :
    reads.foldl (fun r x => receive w c x r) r = taken c r ms [] := by
  induction reads generalizing r ms with
  | nil =>
    obtain rfl := hend rfl
    obtain ⟨hrb, -⟩ := List.append_eq_nil_iff.mp hbytes
    rw [← hrb, taken_nil]
    rfl
  | cons x reads ih =>
    rw [List.flatten_cons, ← List.append_assoc] at hbytes
    obtain ⟨done, todo, left, rfl, hloop, hleft, hend'⟩ :=
      rxLoop_stream ms hms { r with rb := r.rb ++ x } reads.flatten hbytes _ (Nat.le_refl _)
    have hreceive : receive w c x r = taken c r done left := hloop
    have htodo : ∀ m ∈ todo, Acceptable w m := fun m hm => hms m (List.mem_append_right done hm)
    rw [List.foldl_cons, hreceive, ih todo htodo _ hleft hend', taken_taken]

end

/-! ### What reaches the slots (rule R344) -/

section
variable {w : WireParams} {c : WireCodec w}

theorem getElem?_acceptMsg (dir : WireDir) (kind : WireType) (m : WireMsg) (slots : List State)
    (k : Nat) : (acceptMsg w c dir kind m slots)[k]? = (slots[k]?).map fun s =>
      if k = m.slot.toNat then
        { s with inq := s.inq ++ (msgEvent w c dir kind m.payload).toList.map encode }
      else s := by
  unfold acceptMsg
  cases msgEvent w c dir kind m.payload with
  | none => cases slots[k]? <;> simp
  | some i =>
    simp only [deliver, List.getElem?_modify, eq_comm (a := k)]
    rfl

theorem getElem?_reportTo (nr : Byte) (e : TransportErr) (slots : List State) (k : Nat) :
    (reportTo nr e slots)[k]? = (slots[k]?).map fun s =>
      if k = nr.toNat ∧ s.fault = none then afterError s (.transport e) else s := by
  rw [reportTo, List.getElem?_modify]
  congr 1
  funext s
  by_cases hk : nr.toNat = k
  · simp only [hk, true_and]
    rfl
  · simp only [eq_comm (a := k), hk, false_and, if_false]

end

/-! ### Records and events have a message each (rules R70, R302) -/

section
variable {w : WireParams} {c : WireCodec w}

theorem recordMsg_eq_none {m : Mode} {nr : Byte} {x : Record} : recordMsg w c m nr x = none ↔
    (∃ y, x = .txToCard y) ∨ (∃ k, x = .cardReset k) ∨ (∃ rx tx, x = .uartEnable rx tx)
      ∨ (∃ n, x = .uartSetFidi n) ∨ (∃ b, x = .sendByte b) ∨ (∃ n, x = .timerSetWtime n)
      ∨ x = .timerArm ∨ x = .timerDisarm := by
  cases x with
  | change | pps => cases m <;> simp [recordMsg, recordKind, recordContent]
  | _ => simp [recordMsg, recordKind, recordContent]

theorem recordMsg_eq_some {m : Mode} {nr : Byte} {x : Record} {msg : WireMsg}
    (h : recordMsg w c m nr x = some msg) :
    msg.slot = nr ∧ ∃ kind, recordKind m x = some kind
      ∧ c.dec kind msg.payload = recordContent w x ∧ (w.wf → kindOf w msg = some kind) := by
  unfold recordMsg at h
  split at h
  next kind y hkind hcontent =>
    obtain rfl := Option.some.inj h
    exact ⟨rfl, kind, hkind, (c.dec_record m x kind y hkind hcontent).trans hcontent.symm,
      fun hw => kindOf_eq_some w hw kind nr _⟩
  next => cases h

/-- A well-formed event is read back from its kind and content (rules R22, R85 to R88). -/
theorem contentEvent_of_event {i : Instr} {kind : WireType} {x : WireContent} (hw : w.wf) (hi : i.wf)
    (hkind : eventKind i = some kind) (hcontent : eventContent w i = some x) :
    contentEvent w kind x = some i := by
  cases i with
  | apduSegNew | apduSegCont | atrSet | cardResp =>
    cases hkind
    cases hcontent
    exact if_pos hi
  | cardInsert =>
    cases hkind
    cases hcontent
    rfl
  | statusIn f =>
    cases hkind
    cases hcontent
    rw [contentEvent, statusOfWire_wireStatus w hw]
  | _ => cases hkind

end

/-- Settles O60: the stream by the loop on its messages, one turn by the view of the buffer, and the
catalogue by the codec. -/
theorem receiverCutsMessages : Obligations.ReceiverCutsMessages := by
  unfold Obligations.ReceiverCutsMessages
  intro w c r
  refine ⟨fun ms reads hempty hms hbytes => ?stream, rxTurn_eq_none.trans rxView_eq_wait,
    rxTurn_badLen, fun m rest e => rxTurn_rejected,
    fun kind m slots k => getElem?_acceptMsg r.dir kind m slots k, getElem?_reportTo,
    fun m nr x => ⟨recordMsg_eq_none, fun msg => recordMsg_eq_some⟩,
    fun i kind x hw hi hkind hcontent => ?event⟩
  case stream =>
    have hstream : r.rb ++ reads.flatten = streamBytes w ms := by rwa [hempty, List.nil_append]
    have hend : reads.flatten = [] → ms = [] := fun hnil =>
      streamBytes_eq_nil (hbytes.symm.trans hnil)
    rw [foldl_receive reads ms hms r hstream hend, ← hempty]
    rfl
  case event =>
    rw [msgEvent, if_pos rfl, c.dec_event i kind x hi hkind hcontent]
    exact contentEvent_of_event hw hi hkind hcontent

end Sys2Proof.Machine

/-! ## A stopped slot, a stopped bridge (rules R299, R336, R339) -/

namespace Sys2Proof.Machine

section
variable {s : State}

/-- Every event of the line side is guarded by the fault register (rule R336). -/
theorem LineSide.faulted {k : State → Answer} (hk : LineSide k) (hfault : s.fault ≠ none) :
    k s = .next s := by
  cases hk with
  | lineByte | wtExpiry | signal | cardInsert | atrSet | query | reserved =>
    exact whenLive_stuck s _ hfault

/-- A bridge event is guarded by the fault register and by `B_FATAL`, whatever its rule (rules R299,
R336). -/
theorem exec_ofBridge_stopped {i : Instr} (hi : ofBridge i = true)
    (hstop : s.fault ≠ none ∨ s.bridge.fatal = true) : exec i s = .next s := by
  obtain ⟨rule, -, hexec⟩ := bridgeRule_exec hi
  rw [hexec]
  exact whenBridgeLive_stopped s _ hstop

/-- An event of the line side keeps the bridge registers (rule R32). -/
theorem exec_lineSide_keeps_bridge {i : Instr} {t : State} (hi : ofBridge i = false)
    (h : exec i s = .next t) : t.bridge = s.bridge :=
  (lineSide_exec hi).blind.bridge_eq h

end

/-- Settles O12: an event of the line side meets one guard, a bridge event both. -/
theorem faultedSlotTakesNoStep : Obligations.FaultedSlotTakesNoStep := by
  unfold Obligations.FaultedSlotTakesNoStep
  intro i s hfault
  cases hi : ofBridge i with
  | false => exact (lineSide_exec hi).faulted hfault
  | true => exact exec_ofBridge_stopped hi (.inl hfault)

/-- Settles O55: a bridge event meets the guard of the stopped bridge, and the line side never writes
the bridge registers. -/
theorem stoppedBridgeStaysStopped : Obligations.StoppedBridgeStaysStopped := by
  unfold Obligations.StoppedBridgeStaysStopped
  intro i s hfatal
  have hignored (hi : ofBridge i = true) : exec i s = .next s :=
    exec_ofBridge_stopped hi (.inr hfatal)
  refine ⟨hignored, fun t h => ?_⟩
  cases hi : ofBridge i with
  | false => exact exec_lineSide_keeps_bridge hi h
  | true =>
    rw [hignored hi] at h
    cases h
    rfl

end Sys2Proof.Machine
